-- ==== Sys2Proof/Word.lean ====
section
/-! DEFINITION. The two word types of the core (spec/00_scope.md R6, R8): a byte has 8 bits, an address 16.
All arithmetic on them wraps at the width of the type. -/

namespace Sys2Proof

/-- An 8-bit value: A, X, Y, P, SP, an opcode, a memory byte (R6). -/
abbrev Byte := BitVec 8

/-- A 16-bit value: PC, an address, an operand word (R6). -/
abbrev Word := BitVec 16

end Sys2Proof
end

