-- ==== Sys2Proof/Machine/Parts.lean ====
section
/-! DEFINITION. The plain records State is built from: the register file, sparse memory, the cartridge, the Bus,
and the result of one call of the step hook. They stand before Config because the parameters of spec/00_scope.md R7
are typed over them. -/

namespace Sys2Proof.Machine

/-- The register file (spec/10_state.md R31 to R39): three general registers, the status byte P, the stack pointer
and the program counter. -/
structure Cpu where
  /-- A, the accumulator (R31). -/
  a : Byte
  /-- X, an index register (R32). -/
  x : Byte
  /-- Y, an index register (R33). -/
  y : Byte
  /-- P, the status register: C Z I D B U V N at bits 0 to 7 (R34). -/
  p : Byte
  /-- SP, the offset into the stack page (R38). -/
  sp : Byte
  /-- PC, the program counter (R39). -/
  pc : Word
deriving DecidableEq, Repr, Inhabited

/-- Bytes by index, as a list of (index, byte) pairs in the canonical form `Memory.wf`: indexes strictly rising, no
entry equal to what an unlisted index reads as (`Memory.unlisted`). -/
abbrev Memory := List Host.Cell

/-- The mirroring of the cartridge (spec/20_memory.md R85). No CPU rule reads it. -/
inductive Mirroring where
  | vertical
  | horizontal
  | fourScreen
deriving DecidableEq, Repr, Inhabited

/-- The cartridge (spec/10_state.md R42). The images are kept sparse: a length is a number of banks, so that a PRG
image is a multiple of 16384 bytes long, and a CHR image of 8192 bytes, by construction (log entry 10). -/
structure Cart where
  /-- PRG-ROM size in 16 KiB units. -/
  prgBanks : Nat
  /-- The PRG-ROM bytes, by index from 0. -/
  prg : Memory
  /-- CHR-ROM size in 8 KiB units. -/
  chrBanks : Nat
  /-- The CHR-ROM bytes, by index from 0. No CPU rule reads them. -/
  chr : Memory
  /-- The mapper id (R84). No CPU rule reads it. -/
  mapper : Byte
  /-- The mirroring (R85). No CPU rule reads it. -/
  mirroring : Mirroring
  /-- The cartridge is the harness cartridge, the only one `load` may write (spec/70_reset_and_hazards.md R462). -/
  harness : Bool
deriving DecidableEq, Repr, Inhabited

/-- The Bus owns the RAM and one cartridge (spec/10_state.md R30, R41, R42). -/
structure Bus where
  /-- The 2048 bytes of RAM, by index 0x000 to 0x7FF. -/
  ram : Memory
  /-- The cartridge. -/
  cart : Cart
deriving DecidableEq, Repr, Inhabited

/-- What one call of the step hook did (spec/60_exceptions.md R420): the Bus reads it made, then the Bus writes it
asked for, each in order. A hook can do nothing else (R421). -/
structure HookCall where
  reads : List Word
  writes : List (Word × Byte)
deriving DecidableEq, Repr, Inhabited

/-- The no-op hook, the default of the parameter HOOK (spec/00_scope.md R7; spec/60_exceptions.md R422). -/
def HookCall.noop : HookCall := { reads := [], writes := [] }

end Sys2Proof.Machine
end

