-- ==== Sys2Proof/Config.lean ====
section
/-! DEFINITION. What is fixed for the machine, the parameters of spec/00_scope.md R7 as one record of arguments, and the
two free values. The parameter UNSTABLE_SEM is a free value; the parameter HOOK is the argument of the operations that
run a program, and plain data in State. -/

namespace Sys2Proof.Config

open Sys2Proof.Machine

/-- The address whose two bytes are the reset vector (spec/20_memory.md R70). -/
def resetVector : Word := 0xFFFC#16

/-- The stack page, 0x0100 to 0x01FF (spec/40_execution.md R150, decision D1 of spec/92_eei_decisions.md). -/
def stackPage : Word := 0x0100#16

/-- UNSTABLE_POLICY (spec/46_unofficial.md R353). -/
inductive UnstablePolicy where
  /-- The eight unstable opcodes are Unimplemented (the default). -/
  | fault
  /-- They behave as UNSTABLE_SEM says. -/
  | implemented
deriving DecidableEq, Repr

/-- The default of LOAD_ORIGIN (R7, D16). -/
def defaultLoadOrigin : Word := 0x0600#16

/-- The default of HARNESS_CART (R7, D18): one zero-filled PRG bank, one zero-filled CHR bank, mapper 0, Horizontal
mirroring. -/
def defaultHarnessCart : Cart :=
  { prgBanks := 1, prg := [], chrBanks := 1, chr := [], mapper := 0, mirroring := .horizontal, harness := true }

/-- The parameters of spec/00_scope.md R7, arguments of the operations that use them. RAM_INIT has no default. -/
structure Params where
  /-- RAM_INIT, from a RAM index to a byte. -/
  ramInit : Nat → Byte
  /-- LOAD_ORIGIN. -/
  loadOrigin : Word := defaultLoadOrigin
  /-- UNSTABLE_POLICY. A session keeps it in `State.policy`. -/
  unstablePolicy : UnstablePolicy := .fault
  /-- HOST_RNG_ADDR, a zero-page address. The core does not interpret it (spec/60_exceptions.md R425). -/
  hostRngAddr : Byte := 0xFE
  /-- HOST_INPUT_ADDR, a zero-page address. The core does not interpret it (R425). -/
  hostInputAddr : Byte := 0xFF
  /-- HARNESS_CART, the cartridge of a session without a ROM file (spec/70_reset_and_hazards.md R460). -/
  harnessCart : Cart := defaultHarnessCart

/-- One Bus access that an unstable opcode makes at its effective address: a read, or a write of a byte. -/
inductive UnstableAccess where
  | read
  | write (v : Byte)
deriving DecidableEq, Repr, Inhabited

/-- What UNSTABLE_SEM may choose (spec/46_unofficial.md R353): the accesses it makes, and a value for each register
and flag that one of R346 to R352 lets some unstable opcode write. -/
structure UnstableEffect where
  accesses : List UnstableAccess
  a : Byte
  x : Byte
  sp : Byte
  z : Bool
  n : Bool
deriving DecidableEq, Repr, Inhabited

/-- FREE VALUE: UNSTABLE_SEM(op, cpu, bus), the opaque semantics of the unstable opcodes (spec/46_unofficial.md
R353). It has no body: nothing can evaluate it (log entry 5). -/
opaque unstableSem (op : Byte) (cpu : Cpu) (bus : Bus) : UnstableEffect

/-- FREE VALUE: the registers of a Faulted state, which spec/60_exceptions.md R403 leaves unspecified, for a fault
of the given code (R401). It has no body: nothing can evaluate it (log entry 4). -/
opaque faultedCpu (code : Nat) (cpu : Cpu) (bus : Bus) : Cpu

end Sys2Proof.Config
end

