-- ==== Sys2Proof/Machine/State.lean ====
section
/-! DEFINITION. The machine's state, its faults and its refusals (spec/10_state.md; spec/60_exceptions.md). State is
plain data. -/

namespace Sys2Proof.Machine

/-- Why the loader rejects a byte sequence (spec/20_memory.md R81, R82, R86). -/
inductive MalformedReason where
  /-- Fewer than 16 bytes (R81). -/
  | shortHeader
  /-- The first four bytes are not the magic tag (R81). -/
  | badMagic
  /-- A non-zero format version (R82). -/
  | unsupportedVersion
  /-- The buffer is shorter than the images its header declares (R86). -/
  | truncated
deriving DecidableEq, Repr

/-- The fatal conditions (spec/60_exceptions.md R401), codes 1 to 5. An instruction, a hook or a host operation that
meets one takes a next state whose `run` records it (R400); a step from such a state answers the recorded fault.
Each is SAFE: it stands exactly where the spec names it. -/
inductive Fault where
  /-- Code 1. Raised by the loader, so by `newSession`; no session exists then (R407). Safe. -/
  | malformedCartridge (reason : MalformedReason)
  /-- Code 2. Raised by JAM opcodes, and by unstable opcodes under the policy Fault. Safe. -/
  | unimplementedOpcode (op : Byte) (a0 : Word)
  /-- Code 3. Raised by any Bus write into 0x8000 to 0xFFFF: an instruction, the hook or the host. Safe. -/
  | illegalWrite (addr : Word) (v : Byte)
  /-- Code 4. Raised by EA(NoneAddressing); no instruction reaches it (spec/40_execution.md R149). Safe. -/
  | unsupportedAddressingMode (op : Byte) (a0 : Word)
  /-- Code 5. Raised by a Bus read of the PRG window past the image (spec/20_memory.md R65). Safe. -/
  | prgIndexOutOfRange (addr : Word) (i : Nat)
deriving DecidableEq, Repr

/-- The numeric code of a fault (R401). -/
def Fault.code : Fault → Nat
  | .malformedCartridge _ => 1
  | .unimplementedOpcode _ _ => 2
  | .illegalWrite _ _ => 3
  | .unsupportedAddressingMode _ _ => 4
  | .prgIndexOutOfRange _ _ => 5

/-- Where a fault was raised (spec/60_exceptions.md R400). -/
inductive Site where
  /-- In the step whose opcode is at this address. -/
  | opcodeAt (a0 : Word)
  /-- In the step hook. -/
  | hook
  /-- In reset's vector read. -/
  | reset
  /-- In a host `mem_read` or `mem_write`. -/
  | host
deriving DecidableEq, Repr

/-- Why `step`, `exec` or a host operation does nothing and reports a refusal. -/
inductive Refusal where
  /-- `exec`: the instruction has no meaning yet. No arm uses it. Safe. -/
  | notModelled (mnemonic : String)
  /-- `step` in Halted: a step is taken only when `run = Running` (spec/40_execution.md R131). Safe. -/
  | halted
  /-- A host operation in Faulted, which is terminal (spec/60_exceptions.md R404). It returns the fault record, as a
  refused run does (spec/70_reset_and_hazards.md R466). Safe. -/
  | sessionFaulted (f : Fault) (site : Site)
  /-- `load` on a cartridge that is not the harness cartridge (spec/70_reset_and_hazards.md R462). Safe. -/
  | notHarnessCart
  /-- `load` of a program that would run past 0xFFFF (R462). Safe. -/
  | loadPastEnd
  /-- `load` of a byte that has no storage behind its address: 0x2000 to 0x7FFF (R462), or a PRG window without a bank
  (log entry 10). Safe. -/
  | loadNoStorage
  /-- A register preset outside Running: it is defined only between reset and run (R469). Safe. -/
  | presetNotRunning
deriving DecidableEq, Repr

/-- The run state (spec/10_state.md R40), with the fault record of spec/60_exceptions.md R400. -/
inductive Run where
  | running
  | halted
  | faulted (f : Fault) (site : Site)
deriving DecidableEq, Repr

/-- The non-fatal diagnostic events W1 to W4 (spec/60_exceptions.md R408). -/
inductive Event where
  | invalidAddressRead (addr : Word)
  | invalidAddressWrite (addr : Word) (v : Byte)
  | ppuStubRead (addr : Word)
  | ppuStubWrite (addr : Word) (v : Byte)
deriving DecidableEq, Repr

/-- The complete state (spec/10_state.md R30): (cpu, bus, run, diag), and beside them two parameters of
spec/00_scope.md R7 held as data, which no instruction changes. -/
structure State where
  /-- The register file (R31 to R39). -/
  cpu : Cpu
  /-- RAM and cartridge (R41, R42). -/
  bus : Bus
  /-- The run state (R40). -/
  run : Run
  /-- The diagnostic events, oldest first (R43). No rule reads them. -/
  diag : List Event
  /-- UNSTABLE_POLICY (spec/46_unofficial.md R353). The model's own field (log entry 5). -/
  policy : Config.UnstablePolicy
  /-- What the hook does in each coming step, the next step's first; none left means the no-op hook
  (spec/60_exceptions.md R420). The model's own field (log entry 7). -/
  hooks : List HookCall
deriving DecidableEq, Repr

/-- The registers that reset sets (spec/70_reset_and_hazards.md R461), with the PC it loads. -/
def Cpu.reset (pc : Word) : Cpu := { a := 0x00, x := 0x00, y := 0x00, p := 0x24, sp := 0xFD, pc := pc }

/-- The machine right after `reset()` on a harness session with nothing loaded (R460, R461): the reset vector of the
zero-filled default harness cartridge is 0x0000. Every parameter is at its default, and RAM_INIT gives 0x00. Log entries 1 and 2. -/
def State.reset : State :=
  { cpu := Cpu.reset 0x0000
    bus := { ram := [], cart := Config.defaultHarnessCart }
    run := .running
    diag := []
    policy := .fault
    hooks := [] }

/-- What a step, an instruction or a host operation answers. -/
abbrev Out := Host.Outcome State Fault Refusal

end Sys2Proof.Machine
end

