-- ==== Sys2Proof/Machine/Flags.lean ====
section
/-! DEFINITION. The status flags (spec/10_state.md R34) and every flag computation the spec gives: SetZN, AddToA,
Compare and the shift primitives (spec/40_execution.md R155 to R158). They act on the register file alone. -/

namespace Sys2Proof.Machine

/-- The eight flags of P (spec/10_state.md R34). -/
inductive Flag where
  | c
  | z
  | i
  | d
  | b
  | u
  | v
  | n
deriving DecidableEq, Repr

/-- The bit position of a flag in P (R34). -/
def Flag.bit : Flag → Nat
  | .c => 0
  | .z => 1
  | .i => 2
  | .d => 3
  | .b => 4
  | .u => 5
  | .v => 6
  | .n => 7

/-- The byte with one bit set. -/
def bitMask (k : Nat) : Byte := 1#8 <<< k

/-- A flag of a status byte. -/
def flagOf (p : Byte) (f : Flag) : Bool := p.getLsbD f.bit

/-- A status byte with one flag written. -/
def withFlag (f : Flag) (v : Bool) (p : Byte) : Byte :=
  if v then p ||| bitMask f.bit else p &&& ~~~bitMask f.bit

/-- Read a flag of the live P. -/
def Cpu.flag (c : Cpu) (f : Flag) : Bool := flagOf c.p f

/-- Write a flag of the live P. -/
def Cpu.setFlag (f : Flag) (v : Bool) (c : Cpu) : Cpu := { c with p := withFlag f v c.p }

/-- SetZN(v): Z is set exactly when v = 0, N is bit 7 of v; no other flag (spec/40_execution.md R155). -/
def Cpu.setZN (v : Byte) (c : Cpu) : Cpu := (c.setFlag .z (v == 0x00#8)).setFlag .n (v.getLsbD 7)

/-- Write A and set Z and N from it. -/
def Cpu.loadA (v : Byte) (c : Cpu) : Cpu := ({ c with a := v } : Cpu).setZN v

/-- Write X and set Z and N from it. -/
def Cpu.loadX (v : Byte) (c : Cpu) : Cpu := ({ c with x := v } : Cpu).setZN v

/-- Write Y and set Z and N from it. -/
def Cpu.loadY (v : Byte) (c : Cpu) : Cpu := ({ c with y := v } : Cpu).setZN v

/-- A carry as a byte. -/
def carryByte (v : Bool) : Byte := if v then 0x01 else 0x00

/-- The 9-bit sum A + m + C of the adder (R156). -/
def adderSum (a m : Byte) (carry : Bool) : Nat := a.toNat + m.toNat + carry.toNat

/-- The overflow of the adder: `((m ^ r) & (r ^ A) & 0x80) != 0` (R156). -/
def adderOverflow (a m r : Byte) : Bool := ((m ^^^ r) &&& (r ^^^ a) &&& 0x80#8) != 0x00#8

/-- AddToA(m), the shared binary adder; P.D is not read (R156). -/
def Cpu.addToA (m : Byte) (c : Cpu) : Cpu :=
  let sum := adderSum c.a m (c.flag .c)
  let r := BitVec.ofNat 8 sum
  ((c.setFlag .c (decide (0xFF < sum))).setFlag .v (adderOverflow c.a m r)).loadA r

/-- Compare(reg, m): C is `reg >= m` unsigned, Z and N from `reg - m`; V and the register stay (R157). -/
def Cpu.compare (reg m : Byte) (c : Cpu) : Cpu := (c.setFlag .c (decide (m ≤ reg))).setZN (reg - m)

/-- ShiftL(b): the result, and C written with the bit shifted off (R158). -/
def shiftL (b : Byte) (c : Cpu) : Byte × Cpu := (b <<< 1, c.setFlag .c (b.getLsbD 7))

/-- ShiftR(b) (R158). -/
def shiftR (b : Byte) (c : Cpu) : Byte × Cpu := (b >>> 1, c.setFlag .c (b.getLsbD 0))

/-- RotL(b): the carry in is C before the instruction (R158). -/
def rotL (b : Byte) (c : Cpu) : Byte × Cpu :=
  ((b <<< 1) ||| carryByte (c.flag .c), c.setFlag .c (b.getLsbD 7))

/-- RotR(b): the carry in is C before the instruction (R158). -/
def rotR (b : Byte) (c : Cpu) : Byte × Cpu :=
  ((b >>> 1) ||| (carryByte (c.flag .c) <<< 7), c.setFlag .c (b.getLsbD 0))

/-- The byte PHP pushes: P with B and U forced to 1 (spec/45_stack_flags_misc.md R302). -/
def pushedStatus (p : Byte) : Byte := p ||| 0x30#8

/-- The status PLP and RTI restore: B forced to 0 and U forced to 1 (R303; spec/44_control.md R285). -/
def restoredStatus (b : Byte) : Byte := (b &&& ~~~0x10#8) ||| 0x20#8

end Sys2Proof.Machine
end

