-- ==== Sys2Proof/Syntax.lean ====
section
/-! DEFINITION. The instruction set as data: addressing-mode tags, syntax forms, operands, mnemonics, the 256
instructions (one constructor per row of spec/opcode_table.json) and the shape of a row of the opcode table
(spec/30_encoding.md). -/

namespace Sys2Proof

/-- The ten addressing-mode tags (spec/30_encoding.md R102). -/
inductive Mode where
  | immediate
  | zeroPage
  | zeroPageX
  | zeroPageY
  | absolute
  | absoluteX
  | absoluteY
  | indirectX
  | indirectY
  | noneAddressing
deriving DecidableEq, Repr

/-- The thirteen syntax forms (spec/30_encoding.md R103). -/
inductive Form where
  | imp
  | acc
  | imm
  | zp
  | zpX
  | zpY
  | abs
  | absX
  | absY
  | indX
  | indY
  | rel
  | ind
deriving DecidableEq, Repr

/-- An operand: a syntax form with its operand bytes (spec/30_encoding.md R101, R103). `dest` is the form `abs` of
JMP 0x4C and JSR 0x20, whose tag is NoneAddressing: their handlers read the operand themselves (R102). -/
inductive Operand where
  | imp
  | acc
  | imm (imm : Byte)
  | zp (zp : Byte)
  | zpX (zp : Byte)
  | zpY (zp : Byte)
  | abs (addr : Word)
  | dest (addr : Word)
  | absX (addr : Word)
  | absY (addr : Word)
  | indX (zp : Byte)
  | indY (zp : Byte)
  | rel (off : Byte)
  | ind (ptr : Word)
deriving DecidableEq, Repr

/-- The 76 mnemonics of the opcode table (spec/30_encoding.md R110). -/
inductive Mnem where
  | lda | ldx | ldy | sta | stx | sty | tax | tay
  | txa | tya | tsx | txs | adc | sbc | and | ora
  | eor | bit | cmp | cpx | cpy | inc | dec | inx
  | iny | dex | dey | asl | lsr | rol | ror | bpl
  | bmi | bvc | bvs | bcc | bcs | bne | beq | jmp
  | jsr | rts | rti | brk | pha | pla | php | plp
  | clc | sec | cli | sei | clv | cld | sed | nop
  | slo | rla | sre | rra | dcp | isb | lax | sax
  | anc | alr | arr | axs | jam | xaa | lxa | ahx
  | tas | shy | shx | las
deriving DecidableEq, Repr

/-- The instructions, one constructor per row of the opcode table: those with operand bytes in the order of their
opcode bytes, then the 1-byte ones (spec/30_encoding.md R104, R110). An operand stands in the constructor as its byte or little-endian word. Where the
table gives one mnemonic and form several opcodes, the opcode byte ends the name. -/
inductive Instr where
  /-- 0x01 ORA (zp,X) (R203). -/
  | oraIndX (zp : Byte)
  /-- 0x03 SLO (zp,X) (R330). -/
  | sloIndX (zp : Byte)
  /-- 0x04 NOP zp (R344). -/
  | nopZp04 (zp : Byte)
  /-- 0x05 ORA zp (R203). -/
  | oraZp (zp : Byte)
  /-- 0x06 ASL zp (R250). -/
  | aslZp (zp : Byte)
  /-- 0x07 SLO zp (R330). -/
  | sloZp (zp : Byte)
  /-- 0x09 ORA #imm (R203). -/
  | oraImm (imm : Byte)
  /-- 0x0B ANC #imm (R339). -/
  | ancImm0B (imm : Byte)
  /-- 0x0C NOP addr (R344). -/
  | nopAbs0C (addr : Word)
  /-- 0x0D ORA addr (R203). -/
  | oraAbs (addr : Word)
  /-- 0x0E ASL addr (R250). -/
  | aslAbs (addr : Word)
  /-- 0x0F SLO addr (R330). -/
  | sloAbs (addr : Word)
  /-- 0x10 BPL off (R271). -/
  | bpl (off : Byte)
  /-- 0x11 ORA (zp),Y (R203). -/
  | oraIndY (zp : Byte)
  /-- 0x13 SLO (zp),Y (R330). -/
  | sloIndY (zp : Byte)
  /-- 0x14 NOP zp,X (R344). -/
  | nopZpX14 (zp : Byte)
  /-- 0x15 ORA zp,X (R203). -/
  | oraZpX (zp : Byte)
  /-- 0x16 ASL zp,X (R250). -/
  | aslZpX (zp : Byte)
  /-- 0x17 SLO zp,X (R330). -/
  | sloZpX (zp : Byte)
  /-- 0x19 ORA addr,Y (R203). -/
  | oraAbsY (addr : Word)
  /-- 0x1B SLO addr,Y (R330). -/
  | sloAbsY (addr : Word)
  /-- 0x1C NOP addr,X (R344). -/
  | nopAbsX1C (addr : Word)
  /-- 0x1D ORA addr,X (R203). -/
  | oraAbsX (addr : Word)
  /-- 0x1E ASL addr,X (R250). -/
  | aslAbsX (addr : Word)
  /-- 0x1F SLO addr,X (R330). -/
  | sloAbsX (addr : Word)
  /-- 0x20 JSR addr (R282). -/
  | jsr (addr : Word)
  /-- 0x21 AND (zp,X) (R202). -/
  | andIndX (zp : Byte)
  /-- 0x23 RLA (zp,X) (R331). -/
  | rlaIndX (zp : Byte)
  /-- 0x24 BIT zp (R205). -/
  | bitZp (zp : Byte)
  /-- 0x25 AND zp (R202). -/
  | andZp (zp : Byte)
  /-- 0x26 ROL zp (R252). -/
  | rolZp (zp : Byte)
  /-- 0x27 RLA zp (R331). -/
  | rlaZp (zp : Byte)
  /-- 0x29 AND #imm (R202). -/
  | andImm (imm : Byte)
  /-- 0x2B ANC #imm (R339). -/
  | ancImm2B (imm : Byte)
  /-- 0x2C BIT addr (R205). -/
  | bitAbs (addr : Word)
  /-- 0x2D AND addr (R202). -/
  | andAbs (addr : Word)
  /-- 0x2E ROL addr (R252). -/
  | rolAbs (addr : Word)
  /-- 0x2F RLA addr (R331). -/
  | rlaAbs (addr : Word)
  /-- 0x30 BMI off (R272). -/
  | bmi (off : Byte)
  /-- 0x31 AND (zp),Y (R202). -/
  | andIndY (zp : Byte)
  /-- 0x33 RLA (zp),Y (R331). -/
  | rlaIndY (zp : Byte)
  /-- 0x34 NOP zp,X (R344). -/
  | nopZpX34 (zp : Byte)
  /-- 0x35 AND zp,X (R202). -/
  | andZpX (zp : Byte)
  /-- 0x36 ROL zp,X (R252). -/
  | rolZpX (zp : Byte)
  /-- 0x37 RLA zp,X (R331). -/
  | rlaZpX (zp : Byte)
  /-- 0x39 AND addr,Y (R202). -/
  | andAbsY (addr : Word)
  /-- 0x3B RLA addr,Y (R331). -/
  | rlaAbsY (addr : Word)
  /-- 0x3C NOP addr,X (R344). -/
  | nopAbsX3C (addr : Word)
  /-- 0x3D AND addr,X (R202). -/
  | andAbsX (addr : Word)
  /-- 0x3E ROL addr,X (R252). -/
  | rolAbsX (addr : Word)
  /-- 0x3F RLA addr,X (R331). -/
  | rlaAbsX (addr : Word)
  /-- 0x41 EOR (zp,X) (R204). -/
  | eorIndX (zp : Byte)
  /-- 0x43 SRE (zp,X) (R332). -/
  | sreIndX (zp : Byte)
  /-- 0x44 NOP zp (R344). -/
  | nopZp44 (zp : Byte)
  /-- 0x45 EOR zp (R204). -/
  | eorZp (zp : Byte)
  /-- 0x46 LSR zp (R251). -/
  | lsrZp (zp : Byte)
  /-- 0x47 SRE zp (R332). -/
  | sreZp (zp : Byte)
  /-- 0x49 EOR #imm (R204). -/
  | eorImm (imm : Byte)
  /-- 0x4B ALR #imm (R340). -/
  | alrImm (imm : Byte)
  /-- 0x4C JMP addr (R280). -/
  | jmpAbs (addr : Word)
  /-- 0x4D EOR addr (R204). -/
  | eorAbs (addr : Word)
  /-- 0x4E LSR addr (R251). -/
  | lsrAbs (addr : Word)
  /-- 0x4F SRE addr (R332). -/
  | sreAbs (addr : Word)
  /-- 0x50 BVC off (R273). -/
  | bvc (off : Byte)
  /-- 0x51 EOR (zp),Y (R204). -/
  | eorIndY (zp : Byte)
  /-- 0x53 SRE (zp),Y (R332). -/
  | sreIndY (zp : Byte)
  /-- 0x54 NOP zp,X (R344). -/
  | nopZpX54 (zp : Byte)
  /-- 0x55 EOR zp,X (R204). -/
  | eorZpX (zp : Byte)
  /-- 0x56 LSR zp,X (R251). -/
  | lsrZpX (zp : Byte)
  /-- 0x57 SRE zp,X (R332). -/
  | sreZpX (zp : Byte)
  /-- 0x59 EOR addr,Y (R204). -/
  | eorAbsY (addr : Word)
  /-- 0x5B SRE addr,Y (R332). -/
  | sreAbsY (addr : Word)
  /-- 0x5C NOP addr,X (R344). -/
  | nopAbsX5C (addr : Word)
  /-- 0x5D EOR addr,X (R204). -/
  | eorAbsX (addr : Word)
  /-- 0x5E LSR addr,X (R251). -/
  | lsrAbsX (addr : Word)
  /-- 0x5F SRE addr,X (R332). -/
  | sreAbsX (addr : Word)
  /-- 0x61 ADC (zp,X) (R200). -/
  | adcIndX (zp : Byte)
  /-- 0x63 RRA (zp,X) (R333). -/
  | rraIndX (zp : Byte)
  /-- 0x64 NOP zp (R344). -/
  | nopZp64 (zp : Byte)
  /-- 0x65 ADC zp (R200). -/
  | adcZp (zp : Byte)
  /-- 0x66 ROR zp (R253). -/
  | rorZp (zp : Byte)
  /-- 0x67 RRA zp (R333). -/
  | rraZp (zp : Byte)
  /-- 0x69 ADC #imm (R200). -/
  | adcImm (imm : Byte)
  /-- 0x6B ARR #imm (R341). -/
  | arrImm (imm : Byte)
  /-- 0x6C JMP (ptr) (R281). -/
  | jmpInd (ptr : Word)
  /-- 0x6D ADC addr (R200). -/
  | adcAbs (addr : Word)
  /-- 0x6E ROR addr (R253). -/
  | rorAbs (addr : Word)
  /-- 0x6F RRA addr (R333). -/
  | rraAbs (addr : Word)
  /-- 0x70 BVS off (R274). -/
  | bvs (off : Byte)
  /-- 0x71 ADC (zp),Y (R200). -/
  | adcIndY (zp : Byte)
  /-- 0x73 RRA (zp),Y (R333). -/
  | rraIndY (zp : Byte)
  /-- 0x74 NOP zp,X (R344). -/
  | nopZpX74 (zp : Byte)
  /-- 0x75 ADC zp,X (R200). -/
  | adcZpX (zp : Byte)
  /-- 0x76 ROR zp,X (R253). -/
  | rorZpX (zp : Byte)
  /-- 0x77 RRA zp,X (R333). -/
  | rraZpX (zp : Byte)
  /-- 0x79 ADC addr,Y (R200). -/
  | adcAbsY (addr : Word)
  /-- 0x7B RRA addr,Y (R333). -/
  | rraAbsY (addr : Word)
  /-- 0x7C NOP addr,X (R344). -/
  | nopAbsX7C (addr : Word)
  /-- 0x7D ADC addr,X (R200). -/
  | adcAbsX (addr : Word)
  /-- 0x7E ROR addr,X (R253). -/
  | rorAbsX (addr : Word)
  /-- 0x7F RRA addr,X (R333). -/
  | rraAbsX (addr : Word)
  /-- 0x80 NOP #imm (R344). -/
  | nopImm80 (imm : Byte)
  /-- 0x81 STA (zp,X) (R173). -/
  | staIndX (zp : Byte)
  /-- 0x82 NOP #imm (R344). -/
  | nopImm82 (imm : Byte)
  /-- 0x83 SAX (zp,X) (R337). -/
  | saxIndX (zp : Byte)
  /-- 0x84 STY zp (R175). -/
  | styZp (zp : Byte)
  /-- 0x85 STA zp (R173). -/
  | staZp (zp : Byte)
  /-- 0x86 STX zp (R174). -/
  | stxZp (zp : Byte)
  /-- 0x87 SAX zp (R337). -/
  | saxZp (zp : Byte)
  /-- 0x89 NOP #imm (R344). -/
  | nopImm89 (imm : Byte)
  /-- 0x8B XAA #imm (R346). -/
  | xaaImm (imm : Byte)
  /-- 0x8C STY addr (R175). -/
  | styAbs (addr : Word)
  /-- 0x8D STA addr (R173). -/
  | staAbs (addr : Word)
  /-- 0x8E STX addr (R174). -/
  | stxAbs (addr : Word)
  /-- 0x8F SAX addr (R337). -/
  | saxAbs (addr : Word)
  /-- 0x90 BCC off (R275). -/
  | bcc (off : Byte)
  /-- 0x91 STA (zp),Y (R173). -/
  | staIndY (zp : Byte)
  /-- 0x93 AHX (zp),Y (R348). -/
  | ahxIndY (zp : Byte)
  /-- 0x94 STY zp,X (R175). -/
  | styZpX (zp : Byte)
  /-- 0x95 STA zp,X (R173). -/
  | staZpX (zp : Byte)
  /-- 0x96 STX zp,Y (R174). -/
  | stxZpY (zp : Byte)
  /-- 0x97 SAX zp,Y (R337). -/
  | saxZpY (zp : Byte)
  /-- 0x99 STA addr,Y (R173). -/
  | staAbsY (addr : Word)
  /-- 0x9B TAS addr,Y (R349). -/
  | tasAbsY (addr : Word)
  /-- 0x9C SHY addr,X (R350). -/
  | shyAbsX (addr : Word)
  /-- 0x9D STA addr,X (R173). -/
  | staAbsX (addr : Word)
  /-- 0x9E SHX addr,Y (R351). -/
  | shxAbsY (addr : Word)
  /-- 0x9F AHX addr,Y (R348). -/
  | ahxAbsY (addr : Word)
  /-- 0xA0 LDY #imm (R172). -/
  | ldyImm (imm : Byte)
  /-- 0xA1 LDA (zp,X) (R170). -/
  | ldaIndX (zp : Byte)
  /-- 0xA2 LDX #imm (R171). -/
  | ldxImm (imm : Byte)
  /-- 0xA3 LAX (zp,X) (R336). -/
  | laxIndX (zp : Byte)
  /-- 0xA4 LDY zp (R172). -/
  | ldyZp (zp : Byte)
  /-- 0xA5 LDA zp (R170). -/
  | ldaZp (zp : Byte)
  /-- 0xA6 LDX zp (R171). -/
  | ldxZp (zp : Byte)
  /-- 0xA7 LAX zp (R336). -/
  | laxZp (zp : Byte)
  /-- 0xA9 LDA #imm (R170). -/
  | ldaImm (imm : Byte)
  /-- 0xAB LXA #imm (R347). -/
  | lxaImm (imm : Byte)
  /-- 0xAC LDY addr (R172). -/
  | ldyAbs (addr : Word)
  /-- 0xAD LDA addr (R170). -/
  | ldaAbs (addr : Word)
  /-- 0xAE LDX addr (R171). -/
  | ldxAbs (addr : Word)
  /-- 0xAF LAX addr (R336). -/
  | laxAbs (addr : Word)
  /-- 0xB0 BCS off (R276). -/
  | bcs (off : Byte)
  /-- 0xB1 LDA (zp),Y (R170). -/
  | ldaIndY (zp : Byte)
  /-- 0xB3 LAX (zp),Y (R336). -/
  | laxIndY (zp : Byte)
  /-- 0xB4 LDY zp,X (R172). -/
  | ldyZpX (zp : Byte)
  /-- 0xB5 LDA zp,X (R170). -/
  | ldaZpX (zp : Byte)
  /-- 0xB6 LDX zp,Y (R171). -/
  | ldxZpY (zp : Byte)
  /-- 0xB7 LAX zp,Y (R336). -/
  | laxZpY (zp : Byte)
  /-- 0xB9 LDA addr,Y (R170). -/
  | ldaAbsY (addr : Word)
  /-- 0xBB LAS addr,Y (R352). -/
  | lasAbsY (addr : Word)
  /-- 0xBC LDY addr,X (R172). -/
  | ldyAbsX (addr : Word)
  /-- 0xBD LDA addr,X (R170). -/
  | ldaAbsX (addr : Word)
  /-- 0xBE LDX addr,Y (R171). -/
  | ldxAbsY (addr : Word)
  /-- 0xBF LAX addr,Y (R336). -/
  | laxAbsY (addr : Word)
  /-- 0xC0 CPY #imm (R208). -/
  | cpyImm (imm : Byte)
  /-- 0xC1 CMP (zp,X) (R206). -/
  | cmpIndX (zp : Byte)
  /-- 0xC2 NOP #imm (R344). -/
  | nopImmC2 (imm : Byte)
  /-- 0xC3 DCP (zp,X) (R334). -/
  | dcpIndX (zp : Byte)
  /-- 0xC4 CPY zp (R208). -/
  | cpyZp (zp : Byte)
  /-- 0xC5 CMP zp (R206). -/
  | cmpZp (zp : Byte)
  /-- 0xC6 DEC zp (R210). -/
  | decZp (zp : Byte)
  /-- 0xC7 DCP zp (R334). -/
  | dcpZp (zp : Byte)
  /-- 0xC9 CMP #imm (R206). -/
  | cmpImm (imm : Byte)
  /-- 0xCB AXS #imm (R342). -/
  | axsImm (imm : Byte)
  /-- 0xCC CPY addr (R208). -/
  | cpyAbs (addr : Word)
  /-- 0xCD CMP addr (R206). -/
  | cmpAbs (addr : Word)
  /-- 0xCE DEC addr (R210). -/
  | decAbs (addr : Word)
  /-- 0xCF DCP addr (R334). -/
  | dcpAbs (addr : Word)
  /-- 0xD0 BNE off (R277). -/
  | bne (off : Byte)
  /-- 0xD1 CMP (zp),Y (R206). -/
  | cmpIndY (zp : Byte)
  /-- 0xD3 DCP (zp),Y (R334). -/
  | dcpIndY (zp : Byte)
  /-- 0xD4 NOP zp,X (R344). -/
  | nopZpXD4 (zp : Byte)
  /-- 0xD5 CMP zp,X (R206). -/
  | cmpZpX (zp : Byte)
  /-- 0xD6 DEC zp,X (R210). -/
  | decZpX (zp : Byte)
  /-- 0xD7 DCP zp,X (R334). -/
  | dcpZpX (zp : Byte)
  /-- 0xD9 CMP addr,Y (R206). -/
  | cmpAbsY (addr : Word)
  /-- 0xDB DCP addr,Y (R334). -/
  | dcpAbsY (addr : Word)
  /-- 0xDC NOP addr,X (R344). -/
  | nopAbsXDC (addr : Word)
  /-- 0xDD CMP addr,X (R206). -/
  | cmpAbsX (addr : Word)
  /-- 0xDE DEC addr,X (R210). -/
  | decAbsX (addr : Word)
  /-- 0xDF DCP addr,X (R334). -/
  | dcpAbsX (addr : Word)
  /-- 0xE0 CPX #imm (R207). -/
  | cpxImm (imm : Byte)
  /-- 0xE1 SBC (zp,X) (R201). -/
  | sbcIndX (zp : Byte)
  /-- 0xE2 NOP #imm (R344). -/
  | nopImmE2 (imm : Byte)
  /-- 0xE3 ISB (zp,X) (R335). -/
  | isbIndX (zp : Byte)
  /-- 0xE4 CPX zp (R207). -/
  | cpxZp (zp : Byte)
  /-- 0xE5 SBC zp (R201). -/
  | sbcZp (zp : Byte)
  /-- 0xE6 INC zp (R209). -/
  | incZp (zp : Byte)
  /-- 0xE7 ISB zp (R335). -/
  | isbZp (zp : Byte)
  /-- 0xE9 SBC #imm (R201). -/
  | sbcImm (imm : Byte)
  /-- 0xEB SBC #imm (R338). -/
  | sbcImmEB (imm : Byte)
  /-- 0xEC CPX addr (R207). -/
  | cpxAbs (addr : Word)
  /-- 0xED SBC addr (R201). -/
  | sbcAbs (addr : Word)
  /-- 0xEE INC addr (R209). -/
  | incAbs (addr : Word)
  /-- 0xEF ISB addr (R335). -/
  | isbAbs (addr : Word)
  /-- 0xF0 BEQ off (R278). -/
  | beq (off : Byte)
  /-- 0xF1 SBC (zp),Y (R201). -/
  | sbcIndY (zp : Byte)
  /-- 0xF3 ISB (zp),Y (R335). -/
  | isbIndY (zp : Byte)
  /-- 0xF4 NOP zp,X (R344). -/
  | nopZpXF4 (zp : Byte)
  /-- 0xF5 SBC zp,X (R201). -/
  | sbcZpX (zp : Byte)
  /-- 0xF6 INC zp,X (R209). -/
  | incZpX (zp : Byte)
  /-- 0xF7 ISB zp,X (R335). -/
  | isbZpX (zp : Byte)
  /-- 0xF9 SBC addr,Y (R201). -/
  | sbcAbsY (addr : Word)
  /-- 0xFB ISB addr,Y (R335). -/
  | isbAbsY (addr : Word)
  /-- 0xFC NOP addr,X (R344). -/
  | nopAbsXFC (addr : Word)
  /-- 0xFD SBC addr,X (R201). -/
  | sbcAbsX (addr : Word)
  /-- 0xFE INC addr,X (R209). -/
  | incAbsX (addr : Word)
  /-- 0xFF ISB addr,X (R335). -/
  | isbAbsX (addr : Word)
  /-- 0x00 BRK (R287). -/
  | brk
  /-- 0x02 JAM (R345). -/
  | jam02
  /-- 0x08 PHP (R302). -/
  | php
  /-- 0x0A ASL A (R250). -/
  | aslAcc
  /-- 0x12 JAM (R345). -/
  | jam12
  /-- 0x18 CLC (R310). -/
  | clc
  /-- 0x1A NOP (R343). -/
  | nop1A
  /-- 0x22 JAM (R345). -/
  | jam22
  /-- 0x28 PLP (R303). -/
  | plp
  /-- 0x2A ROL A (R252). -/
  | rolAcc
  /-- 0x32 JAM (R345). -/
  | jam32
  /-- 0x38 SEC (R311). -/
  | sec
  /-- 0x3A NOP (R343). -/
  | nop3A
  /-- 0x40 RTI (R285). -/
  | rti
  /-- 0x42 JAM (R345). -/
  | jam42
  /-- 0x48 PHA (R300). -/
  | pha
  /-- 0x4A LSR A (R251). -/
  | lsrAcc
  /-- 0x52 JAM (R345). -/
  | jam52
  /-- 0x58 CLI (R312). -/
  | cli
  /-- 0x5A NOP (R343). -/
  | nop5A
  /-- 0x60 RTS (R283). -/
  | rts
  /-- 0x62 JAM (R345). -/
  | jam62
  /-- 0x68 PLA (R301). -/
  | pla
  /-- 0x6A ROR A (R253). -/
  | rorAcc
  /-- 0x72 JAM (R345). -/
  | jam72
  /-- 0x78 SEI (R313). -/
  | sei
  /-- 0x7A NOP (R343). -/
  | nop7A
  /-- 0x88 DEY (R214). -/
  | dey
  /-- 0x8A TXA (R178). -/
  | txa
  /-- 0x92 JAM (R345). -/
  | jam92
  /-- 0x98 TYA (R179). -/
  | tya
  /-- 0x9A TXS (R181). -/
  | txs
  /-- 0xA8 TAY (R177). -/
  | tay
  /-- 0xAA TAX (R176). -/
  | tax
  /-- 0xB2 JAM (R345). -/
  | jamB2
  /-- 0xB8 CLV (R314). -/
  | clv
  /-- 0xBA TSX (R180). -/
  | tsx
  /-- 0xC8 INY (R212). -/
  | iny
  /-- 0xCA DEX (R213). -/
  | dex
  /-- 0xD2 JAM (R345). -/
  | jamD2
  /-- 0xD8 CLD (R315). -/
  | cld
  /-- 0xDA NOP (R343). -/
  | nopDA
  /-- 0xE8 INX (R211). -/
  | inx
  /-- 0xEA NOP (R320). -/
  | nop
  /-- 0xF2 JAM (R345). -/
  | jamF2
  /-- 0xF8 SED (R316). -/
  | sed
  /-- 0xFA NOP (R343). -/
  | nopFA
deriving DecidableEq, Repr

/-- A base cycle count (spec/30_encoding.md R110; spec/70_reset_and_hazards.md R481): metadata no rule uses. -/
inductive Cycles where
  /-- No count (JAM). -/
  | none
  /-- A plain count. -/
  | fixed (n : Nat)
  /-- A count marked `*`. -/
  | pageCross (n : Nat)
  /-- A count marked `**`. -/
  | branch (n : Nat)
deriving DecidableEq, Repr

/-- The column "implemented" of the opcode table (spec/30_encoding.md R107, R110). -/
inductive Implemented where
  | yes
  /-- Implemented only when UNSTABLE_POLICY = Implemented. -/
  | policy
  | no
deriving DecidableEq, Repr

/-- A row of the opcode table (spec/10_state.md R44; spec/30_encoding.md R104, R110). -/
structure Row where
  opcode : Byte
  mnem : Mnem
  form : Form
  mode : Mode
  length : Nat
  cycles : Cycles
  official : Bool
  implemented : Implemented
  /-- The number n of the rule R<n> that gives the semantics. -/
  rule : Nat
deriving DecidableEq, Repr

end Sys2Proof
end

