-- ==== Sys2Proof/WellFormed.lean ====
section
/-! DEFINITION. The checks spec/30_encoding.md R109 makes of the opcode table, and what it is for an instruction to
agree with its row. Each check is a Bool of its own. -/

namespace Sys2Proof

/-- The length a syntax form has (spec/30_encoding.md R103). -/
def Form.wfLength : Form → Nat
  | .imp | .acc => 1
  | .imm | .zp | .zpX | .zpY | .indX | .indY | .rel => 2
  | .abs | .absX | .absY | .ind => 3

/-- The tag a syntax form maps to (spec/30_encoding.md R103): NoneAddressing for the form `abs` of JMP and JSR. -/
def Form.wfMode (m : Mnem) : Form → Mode
  | .imp | .acc | .rel | .ind => .noneAddressing
  | .imm => .immediate
  | .zp => .zeroPage
  | .zpX => .zeroPageX
  | .zpY => .zeroPageY
  | .abs => if m = .jmp ∨ m = .jsr then .noneAddressing else .absolute
  | .absX => .absoluteX
  | .absY => .absoluteY
  | .indX => .indirectX
  | .indY => .indirectY

/-- "The length in each row equals the length of its syntax form" (R109). -/
def Row.lengthOk (r : Row) : Bool := r.length == r.form.wfLength

/-- The tag of a row is the one its syntax form maps to (R103). -/
def Row.modeOk (r : Row) : Bool := r.mode == r.form.wfMode r.mnem

/-- The semantic rules of the instruction files 41 to 46. -/
def semanticRules : List Nat :=
  List.range' 170 12 ++ List.range' 200 15 ++ List.range' 250 4 ++ List.range' 271 8 ++ List.range' 280 4 ++
    [285, 287] ++ List.range' 300 4 ++ List.range' 310 7 ++ [320] ++ List.range' 330 23

/-- "every implemented row names an existing semantic rule" (R109). -/
def Row.ruleOk (r : Row) : Bool := r.implemented == .no || semanticRules.contains r.rule

/-- An official row is implemented (R106). -/
def Row.officialOk (r : Row) : Bool := !r.official || r.implemented == .yes

/-- A well-formed row. -/
def Row.wf (r : Row) : Bool := r.lengthOk && r.modeOk && r.ruleOk && r.officialOk

/-- "Each opcode key appears in exactly one row", and the table is total: its keys are 0x00 to 0xFF in order (R104,
R109). -/
def keysOk (table : List Row) : Bool := table.map (fun r => r.opcode.toNat) == List.range 256

/-- A well-formed opcode table (R109). -/
def tableWf (table : List Row) : Bool := keysOk table && table.all Row.wf

/-- An instruction, given as its mnemonic, opcode, operand form, tag and length, agrees with a row. -/
def Row.describes (r : Row) (m : Mnem) (op : Byte) (f : Form) (mode : Mode) (length : Nat) : Bool :=
  r.wf && r.opcode == op && r.mnem == m && r.form == f && r.mode == mode && r.length == length

end Sys2Proof
end

