-- ==== Sys2Proof/Decode.lean ====
section
/-! DEFINITION. The opcode table, the decoder and the encoder (spec/30_encoding.md). The opcode byte alone selects
the row (R104); the operand bytes follow it in increasing address order, low byte first (R101). -/

namespace Sys2Proof

/-! ## Byte order -/

/-- The low byte of a word, `v[7:0]` (spec/00_scope.md R8). -/
def lowByte (w : Word) : Byte := w.extractLsb' 0 8

/-- The high byte of a word, `v[15:8]`. -/
def highByte (w : Word) : Byte := w.extractLsb' 8 8

/-- `(hi << 8) | lo` (R8). -/
def wordOf (hi lo : Byte) : Word := hi ++ lo

/-! ## The opcode table (R110), one list per high nibble -/

/-- Rows 0x00 to 0x0F. -/
def tableRow0 : List Row :=
  [ ⟨0x00, .brk, .imp, .noneAddressing, 1, .fixed 7, true, .yes, 287⟩,
    ⟨0x01, .ora, .indX, .indirectX, 2, .fixed 6, true, .yes, 203⟩,
    ⟨0x02, .jam, .imp, .noneAddressing, 1, .none, false, .no, 345⟩,
    ⟨0x03, .slo, .indX, .indirectX, 2, .fixed 8, false, .yes, 330⟩,
    ⟨0x04, .nop, .zp, .zeroPage, 2, .fixed 3, false, .yes, 344⟩,
    ⟨0x05, .ora, .zp, .zeroPage, 2, .fixed 3, true, .yes, 203⟩,
    ⟨0x06, .asl, .zp, .zeroPage, 2, .fixed 5, true, .yes, 250⟩,
    ⟨0x07, .slo, .zp, .zeroPage, 2, .fixed 5, false, .yes, 330⟩,
    ⟨0x08, .php, .imp, .noneAddressing, 1, .fixed 3, true, .yes, 302⟩,
    ⟨0x09, .ora, .imm, .immediate, 2, .fixed 2, true, .yes, 203⟩,
    ⟨0x0A, .asl, .acc, .noneAddressing, 1, .fixed 2, true, .yes, 250⟩,
    ⟨0x0B, .anc, .imm, .immediate, 2, .fixed 2, false, .yes, 339⟩,
    ⟨0x0C, .nop, .abs, .absolute, 3, .fixed 4, false, .yes, 344⟩,
    ⟨0x0D, .ora, .abs, .absolute, 3, .fixed 4, true, .yes, 203⟩,
    ⟨0x0E, .asl, .abs, .absolute, 3, .fixed 6, true, .yes, 250⟩,
    ⟨0x0F, .slo, .abs, .absolute, 3, .fixed 6, false, .yes, 330⟩ ]

/-- Rows 0x10 to 0x1F. -/
def tableRow1 : List Row :=
  [ ⟨0x10, .bpl, .rel, .noneAddressing, 2, .branch 2, true, .yes, 271⟩,
    ⟨0x11, .ora, .indY, .indirectY, 2, .pageCross 5, true, .yes, 203⟩,
    ⟨0x12, .jam, .imp, .noneAddressing, 1, .none, false, .no, 345⟩,
    ⟨0x13, .slo, .indY, .indirectY, 2, .fixed 8, false, .yes, 330⟩,
    ⟨0x14, .nop, .zpX, .zeroPageX, 2, .fixed 4, false, .yes, 344⟩,
    ⟨0x15, .ora, .zpX, .zeroPageX, 2, .fixed 4, true, .yes, 203⟩,
    ⟨0x16, .asl, .zpX, .zeroPageX, 2, .fixed 6, true, .yes, 250⟩,
    ⟨0x17, .slo, .zpX, .zeroPageX, 2, .fixed 6, false, .yes, 330⟩,
    ⟨0x18, .clc, .imp, .noneAddressing, 1, .fixed 2, true, .yes, 310⟩,
    ⟨0x19, .ora, .absY, .absoluteY, 3, .pageCross 4, true, .yes, 203⟩,
    ⟨0x1A, .nop, .imp, .noneAddressing, 1, .fixed 2, false, .yes, 343⟩,
    ⟨0x1B, .slo, .absY, .absoluteY, 3, .fixed 7, false, .yes, 330⟩,
    ⟨0x1C, .nop, .absX, .absoluteX, 3, .pageCross 4, false, .yes, 344⟩,
    ⟨0x1D, .ora, .absX, .absoluteX, 3, .pageCross 4, true, .yes, 203⟩,
    ⟨0x1E, .asl, .absX, .absoluteX, 3, .fixed 7, true, .yes, 250⟩,
    ⟨0x1F, .slo, .absX, .absoluteX, 3, .fixed 7, false, .yes, 330⟩ ]

/-- Rows 0x20 to 0x2F. -/
def tableRow2 : List Row :=
  [ ⟨0x20, .jsr, .abs, .noneAddressing, 3, .fixed 6, true, .yes, 282⟩,
    ⟨0x21, .and, .indX, .indirectX, 2, .fixed 6, true, .yes, 202⟩,
    ⟨0x22, .jam, .imp, .noneAddressing, 1, .none, false, .no, 345⟩,
    ⟨0x23, .rla, .indX, .indirectX, 2, .fixed 8, false, .yes, 331⟩,
    ⟨0x24, .bit, .zp, .zeroPage, 2, .fixed 3, true, .yes, 205⟩,
    ⟨0x25, .and, .zp, .zeroPage, 2, .fixed 3, true, .yes, 202⟩,
    ⟨0x26, .rol, .zp, .zeroPage, 2, .fixed 5, true, .yes, 252⟩,
    ⟨0x27, .rla, .zp, .zeroPage, 2, .fixed 5, false, .yes, 331⟩,
    ⟨0x28, .plp, .imp, .noneAddressing, 1, .fixed 4, true, .yes, 303⟩,
    ⟨0x29, .and, .imm, .immediate, 2, .fixed 2, true, .yes, 202⟩,
    ⟨0x2A, .rol, .acc, .noneAddressing, 1, .fixed 2, true, .yes, 252⟩,
    ⟨0x2B, .anc, .imm, .immediate, 2, .fixed 2, false, .yes, 339⟩,
    ⟨0x2C, .bit, .abs, .absolute, 3, .fixed 4, true, .yes, 205⟩,
    ⟨0x2D, .and, .abs, .absolute, 3, .fixed 4, true, .yes, 202⟩,
    ⟨0x2E, .rol, .abs, .absolute, 3, .fixed 6, true, .yes, 252⟩,
    ⟨0x2F, .rla, .abs, .absolute, 3, .fixed 6, false, .yes, 331⟩ ]

/-- Rows 0x30 to 0x3F. -/
def tableRow3 : List Row :=
  [ ⟨0x30, .bmi, .rel, .noneAddressing, 2, .branch 2, true, .yes, 272⟩,
    ⟨0x31, .and, .indY, .indirectY, 2, .pageCross 5, true, .yes, 202⟩,
    ⟨0x32, .jam, .imp, .noneAddressing, 1, .none, false, .no, 345⟩,
    ⟨0x33, .rla, .indY, .indirectY, 2, .fixed 8, false, .yes, 331⟩,
    ⟨0x34, .nop, .zpX, .zeroPageX, 2, .fixed 4, false, .yes, 344⟩,
    ⟨0x35, .and, .zpX, .zeroPageX, 2, .fixed 4, true, .yes, 202⟩,
    ⟨0x36, .rol, .zpX, .zeroPageX, 2, .fixed 6, true, .yes, 252⟩,
    ⟨0x37, .rla, .zpX, .zeroPageX, 2, .fixed 6, false, .yes, 331⟩,
    ⟨0x38, .sec, .imp, .noneAddressing, 1, .fixed 2, true, .yes, 311⟩,
    ⟨0x39, .and, .absY, .absoluteY, 3, .pageCross 4, true, .yes, 202⟩,
    ⟨0x3A, .nop, .imp, .noneAddressing, 1, .fixed 2, false, .yes, 343⟩,
    ⟨0x3B, .rla, .absY, .absoluteY, 3, .fixed 7, false, .yes, 331⟩,
    ⟨0x3C, .nop, .absX, .absoluteX, 3, .pageCross 4, false, .yes, 344⟩,
    ⟨0x3D, .and, .absX, .absoluteX, 3, .pageCross 4, true, .yes, 202⟩,
    ⟨0x3E, .rol, .absX, .absoluteX, 3, .fixed 7, true, .yes, 252⟩,
    ⟨0x3F, .rla, .absX, .absoluteX, 3, .fixed 7, false, .yes, 331⟩ ]

/-- Rows 0x40 to 0x4F. -/
def tableRow4 : List Row :=
  [ ⟨0x40, .rti, .imp, .noneAddressing, 1, .fixed 6, true, .yes, 285⟩,
    ⟨0x41, .eor, .indX, .indirectX, 2, .fixed 6, true, .yes, 204⟩,
    ⟨0x42, .jam, .imp, .noneAddressing, 1, .none, false, .no, 345⟩,
    ⟨0x43, .sre, .indX, .indirectX, 2, .fixed 8, false, .yes, 332⟩,
    ⟨0x44, .nop, .zp, .zeroPage, 2, .fixed 3, false, .yes, 344⟩,
    ⟨0x45, .eor, .zp, .zeroPage, 2, .fixed 3, true, .yes, 204⟩,
    ⟨0x46, .lsr, .zp, .zeroPage, 2, .fixed 5, true, .yes, 251⟩,
    ⟨0x47, .sre, .zp, .zeroPage, 2, .fixed 5, false, .yes, 332⟩,
    ⟨0x48, .pha, .imp, .noneAddressing, 1, .fixed 3, true, .yes, 300⟩,
    ⟨0x49, .eor, .imm, .immediate, 2, .fixed 2, true, .yes, 204⟩,
    ⟨0x4A, .lsr, .acc, .noneAddressing, 1, .fixed 2, true, .yes, 251⟩,
    ⟨0x4B, .alr, .imm, .immediate, 2, .fixed 2, false, .yes, 340⟩,
    ⟨0x4C, .jmp, .abs, .noneAddressing, 3, .fixed 3, true, .yes, 280⟩,
    ⟨0x4D, .eor, .abs, .absolute, 3, .fixed 4, true, .yes, 204⟩,
    ⟨0x4E, .lsr, .abs, .absolute, 3, .fixed 6, true, .yes, 251⟩,
    ⟨0x4F, .sre, .abs, .absolute, 3, .fixed 6, false, .yes, 332⟩ ]

/-- Rows 0x50 to 0x5F. -/
def tableRow5 : List Row :=
  [ ⟨0x50, .bvc, .rel, .noneAddressing, 2, .branch 2, true, .yes, 273⟩,
    ⟨0x51, .eor, .indY, .indirectY, 2, .pageCross 5, true, .yes, 204⟩,
    ⟨0x52, .jam, .imp, .noneAddressing, 1, .none, false, .no, 345⟩,
    ⟨0x53, .sre, .indY, .indirectY, 2, .fixed 8, false, .yes, 332⟩,
    ⟨0x54, .nop, .zpX, .zeroPageX, 2, .fixed 4, false, .yes, 344⟩,
    ⟨0x55, .eor, .zpX, .zeroPageX, 2, .fixed 4, true, .yes, 204⟩,
    ⟨0x56, .lsr, .zpX, .zeroPageX, 2, .fixed 6, true, .yes, 251⟩,
    ⟨0x57, .sre, .zpX, .zeroPageX, 2, .fixed 6, false, .yes, 332⟩,
    ⟨0x58, .cli, .imp, .noneAddressing, 1, .fixed 2, true, .yes, 312⟩,
    ⟨0x59, .eor, .absY, .absoluteY, 3, .pageCross 4, true, .yes, 204⟩,
    ⟨0x5A, .nop, .imp, .noneAddressing, 1, .fixed 2, false, .yes, 343⟩,
    ⟨0x5B, .sre, .absY, .absoluteY, 3, .fixed 7, false, .yes, 332⟩,
    ⟨0x5C, .nop, .absX, .absoluteX, 3, .pageCross 4, false, .yes, 344⟩,
    ⟨0x5D, .eor, .absX, .absoluteX, 3, .pageCross 4, true, .yes, 204⟩,
    ⟨0x5E, .lsr, .absX, .absoluteX, 3, .fixed 7, true, .yes, 251⟩,
    ⟨0x5F, .sre, .absX, .absoluteX, 3, .fixed 7, false, .yes, 332⟩ ]

/-- Rows 0x60 to 0x6F. -/
def tableRow6 : List Row :=
  [ ⟨0x60, .rts, .imp, .noneAddressing, 1, .fixed 6, true, .yes, 283⟩,
    ⟨0x61, .adc, .indX, .indirectX, 2, .fixed 6, true, .yes, 200⟩,
    ⟨0x62, .jam, .imp, .noneAddressing, 1, .none, false, .no, 345⟩,
    ⟨0x63, .rra, .indX, .indirectX, 2, .fixed 8, false, .yes, 333⟩,
    ⟨0x64, .nop, .zp, .zeroPage, 2, .fixed 3, false, .yes, 344⟩,
    ⟨0x65, .adc, .zp, .zeroPage, 2, .fixed 3, true, .yes, 200⟩,
    ⟨0x66, .ror, .zp, .zeroPage, 2, .fixed 5, true, .yes, 253⟩,
    ⟨0x67, .rra, .zp, .zeroPage, 2, .fixed 5, false, .yes, 333⟩,
    ⟨0x68, .pla, .imp, .noneAddressing, 1, .fixed 4, true, .yes, 301⟩,
    ⟨0x69, .adc, .imm, .immediate, 2, .fixed 2, true, .yes, 200⟩,
    ⟨0x6A, .ror, .acc, .noneAddressing, 1, .fixed 2, true, .yes, 253⟩,
    ⟨0x6B, .arr, .imm, .immediate, 2, .fixed 2, false, .yes, 341⟩,
    ⟨0x6C, .jmp, .ind, .noneAddressing, 3, .fixed 5, true, .yes, 281⟩,
    ⟨0x6D, .adc, .abs, .absolute, 3, .fixed 4, true, .yes, 200⟩,
    ⟨0x6E, .ror, .abs, .absolute, 3, .fixed 6, true, .yes, 253⟩,
    ⟨0x6F, .rra, .abs, .absolute, 3, .fixed 6, false, .yes, 333⟩ ]

/-- Rows 0x70 to 0x7F. -/
def tableRow7 : List Row :=
  [ ⟨0x70, .bvs, .rel, .noneAddressing, 2, .branch 2, true, .yes, 274⟩,
    ⟨0x71, .adc, .indY, .indirectY, 2, .pageCross 5, true, .yes, 200⟩,
    ⟨0x72, .jam, .imp, .noneAddressing, 1, .none, false, .no, 345⟩,
    ⟨0x73, .rra, .indY, .indirectY, 2, .fixed 8, false, .yes, 333⟩,
    ⟨0x74, .nop, .zpX, .zeroPageX, 2, .fixed 4, false, .yes, 344⟩,
    ⟨0x75, .adc, .zpX, .zeroPageX, 2, .fixed 4, true, .yes, 200⟩,
    ⟨0x76, .ror, .zpX, .zeroPageX, 2, .fixed 6, true, .yes, 253⟩,
    ⟨0x77, .rra, .zpX, .zeroPageX, 2, .fixed 6, false, .yes, 333⟩,
    ⟨0x78, .sei, .imp, .noneAddressing, 1, .fixed 2, true, .yes, 313⟩,
    ⟨0x79, .adc, .absY, .absoluteY, 3, .pageCross 4, true, .yes, 200⟩,
    ⟨0x7A, .nop, .imp, .noneAddressing, 1, .fixed 2, false, .yes, 343⟩,
    ⟨0x7B, .rra, .absY, .absoluteY, 3, .fixed 7, false, .yes, 333⟩,
    ⟨0x7C, .nop, .absX, .absoluteX, 3, .pageCross 4, false, .yes, 344⟩,
    ⟨0x7D, .adc, .absX, .absoluteX, 3, .pageCross 4, true, .yes, 200⟩,
    ⟨0x7E, .ror, .absX, .absoluteX, 3, .fixed 7, true, .yes, 253⟩,
    ⟨0x7F, .rra, .absX, .absoluteX, 3, .fixed 7, false, .yes, 333⟩ ]

/-- Rows 0x80 to 0x8F. -/
def tableRow8 : List Row :=
  [ ⟨0x80, .nop, .imm, .immediate, 2, .fixed 2, false, .yes, 344⟩,
    ⟨0x81, .sta, .indX, .indirectX, 2, .fixed 6, true, .yes, 173⟩,
    ⟨0x82, .nop, .imm, .immediate, 2, .fixed 2, false, .yes, 344⟩,
    ⟨0x83, .sax, .indX, .indirectX, 2, .fixed 6, false, .yes, 337⟩,
    ⟨0x84, .sty, .zp, .zeroPage, 2, .fixed 3, true, .yes, 175⟩,
    ⟨0x85, .sta, .zp, .zeroPage, 2, .fixed 3, true, .yes, 173⟩,
    ⟨0x86, .stx, .zp, .zeroPage, 2, .fixed 3, true, .yes, 174⟩,
    ⟨0x87, .sax, .zp, .zeroPage, 2, .fixed 3, false, .yes, 337⟩,
    ⟨0x88, .dey, .imp, .noneAddressing, 1, .fixed 2, true, .yes, 214⟩,
    ⟨0x89, .nop, .imm, .immediate, 2, .fixed 2, false, .yes, 344⟩,
    ⟨0x8A, .txa, .imp, .noneAddressing, 1, .fixed 2, true, .yes, 178⟩,
    ⟨0x8B, .xaa, .imm, .immediate, 2, .fixed 2, false, .policy, 346⟩,
    ⟨0x8C, .sty, .abs, .absolute, 3, .fixed 4, true, .yes, 175⟩,
    ⟨0x8D, .sta, .abs, .absolute, 3, .fixed 4, true, .yes, 173⟩,
    ⟨0x8E, .stx, .abs, .absolute, 3, .fixed 4, true, .yes, 174⟩,
    ⟨0x8F, .sax, .abs, .absolute, 3, .fixed 4, false, .yes, 337⟩ ]

/-- Rows 0x90 to 0x9F. -/
def tableRow9 : List Row :=
  [ ⟨0x90, .bcc, .rel, .noneAddressing, 2, .branch 2, true, .yes, 275⟩,
    ⟨0x91, .sta, .indY, .indirectY, 2, .fixed 6, true, .yes, 173⟩,
    ⟨0x92, .jam, .imp, .noneAddressing, 1, .none, false, .no, 345⟩,
    ⟨0x93, .ahx, .indY, .indirectY, 2, .fixed 6, false, .policy, 348⟩,
    ⟨0x94, .sty, .zpX, .zeroPageX, 2, .fixed 4, true, .yes, 175⟩,
    ⟨0x95, .sta, .zpX, .zeroPageX, 2, .fixed 4, true, .yes, 173⟩,
    ⟨0x96, .stx, .zpY, .zeroPageY, 2, .fixed 4, true, .yes, 174⟩,
    ⟨0x97, .sax, .zpY, .zeroPageY, 2, .fixed 4, false, .yes, 337⟩,
    ⟨0x98, .tya, .imp, .noneAddressing, 1, .fixed 2, true, .yes, 179⟩,
    ⟨0x99, .sta, .absY, .absoluteY, 3, .fixed 5, true, .yes, 173⟩,
    ⟨0x9A, .txs, .imp, .noneAddressing, 1, .fixed 2, true, .yes, 181⟩,
    ⟨0x9B, .tas, .absY, .absoluteY, 3, .fixed 5, false, .policy, 349⟩,
    ⟨0x9C, .shy, .absX, .absoluteX, 3, .fixed 5, false, .policy, 350⟩,
    ⟨0x9D, .sta, .absX, .absoluteX, 3, .fixed 5, true, .yes, 173⟩,
    ⟨0x9E, .shx, .absY, .absoluteY, 3, .fixed 5, false, .policy, 351⟩,
    ⟨0x9F, .ahx, .absY, .absoluteY, 3, .fixed 5, false, .policy, 348⟩ ]

/-- Rows 0xA0 to 0xAF. -/
def tableRowA : List Row :=
  [ ⟨0xA0, .ldy, .imm, .immediate, 2, .fixed 2, true, .yes, 172⟩,
    ⟨0xA1, .lda, .indX, .indirectX, 2, .fixed 6, true, .yes, 170⟩,
    ⟨0xA2, .ldx, .imm, .immediate, 2, .fixed 2, true, .yes, 171⟩,
    ⟨0xA3, .lax, .indX, .indirectX, 2, .fixed 6, false, .yes, 336⟩,
    ⟨0xA4, .ldy, .zp, .zeroPage, 2, .fixed 3, true, .yes, 172⟩,
    ⟨0xA5, .lda, .zp, .zeroPage, 2, .fixed 3, true, .yes, 170⟩,
    ⟨0xA6, .ldx, .zp, .zeroPage, 2, .fixed 3, true, .yes, 171⟩,
    ⟨0xA7, .lax, .zp, .zeroPage, 2, .fixed 3, false, .yes, 336⟩,
    ⟨0xA8, .tay, .imp, .noneAddressing, 1, .fixed 2, true, .yes, 177⟩,
    ⟨0xA9, .lda, .imm, .immediate, 2, .fixed 2, true, .yes, 170⟩,
    ⟨0xAA, .tax, .imp, .noneAddressing, 1, .fixed 2, true, .yes, 176⟩,
    ⟨0xAB, .lxa, .imm, .immediate, 2, .fixed 2, false, .policy, 347⟩,
    ⟨0xAC, .ldy, .abs, .absolute, 3, .fixed 4, true, .yes, 172⟩,
    ⟨0xAD, .lda, .abs, .absolute, 3, .fixed 4, true, .yes, 170⟩,
    ⟨0xAE, .ldx, .abs, .absolute, 3, .fixed 4, true, .yes, 171⟩,
    ⟨0xAF, .lax, .abs, .absolute, 3, .fixed 4, false, .yes, 336⟩ ]

/-- Rows 0xB0 to 0xBF. -/
def tableRowB : List Row :=
  [ ⟨0xB0, .bcs, .rel, .noneAddressing, 2, .branch 2, true, .yes, 276⟩,
    ⟨0xB1, .lda, .indY, .indirectY, 2, .pageCross 5, true, .yes, 170⟩,
    ⟨0xB2, .jam, .imp, .noneAddressing, 1, .none, false, .no, 345⟩,
    ⟨0xB3, .lax, .indY, .indirectY, 2, .pageCross 5, false, .yes, 336⟩,
    ⟨0xB4, .ldy, .zpX, .zeroPageX, 2, .fixed 4, true, .yes, 172⟩,
    ⟨0xB5, .lda, .zpX, .zeroPageX, 2, .fixed 4, true, .yes, 170⟩,
    ⟨0xB6, .ldx, .zpY, .zeroPageY, 2, .fixed 4, true, .yes, 171⟩,
    ⟨0xB7, .lax, .zpY, .zeroPageY, 2, .fixed 4, false, .yes, 336⟩,
    ⟨0xB8, .clv, .imp, .noneAddressing, 1, .fixed 2, true, .yes, 314⟩,
    ⟨0xB9, .lda, .absY, .absoluteY, 3, .pageCross 4, true, .yes, 170⟩,
    ⟨0xBA, .tsx, .imp, .noneAddressing, 1, .fixed 2, true, .yes, 180⟩,
    ⟨0xBB, .las, .absY, .absoluteY, 3, .pageCross 4, false, .policy, 352⟩,
    ⟨0xBC, .ldy, .absX, .absoluteX, 3, .pageCross 4, true, .yes, 172⟩,
    ⟨0xBD, .lda, .absX, .absoluteX, 3, .pageCross 4, true, .yes, 170⟩,
    ⟨0xBE, .ldx, .absY, .absoluteY, 3, .pageCross 4, true, .yes, 171⟩,
    ⟨0xBF, .lax, .absY, .absoluteY, 3, .pageCross 4, false, .yes, 336⟩ ]

/-- Rows 0xC0 to 0xCF. -/
def tableRowC : List Row :=
  [ ⟨0xC0, .cpy, .imm, .immediate, 2, .fixed 2, true, .yes, 208⟩,
    ⟨0xC1, .cmp, .indX, .indirectX, 2, .fixed 6, true, .yes, 206⟩,
    ⟨0xC2, .nop, .imm, .immediate, 2, .fixed 2, false, .yes, 344⟩,
    ⟨0xC3, .dcp, .indX, .indirectX, 2, .fixed 8, false, .yes, 334⟩,
    ⟨0xC4, .cpy, .zp, .zeroPage, 2, .fixed 3, true, .yes, 208⟩,
    ⟨0xC5, .cmp, .zp, .zeroPage, 2, .fixed 3, true, .yes, 206⟩,
    ⟨0xC6, .dec, .zp, .zeroPage, 2, .fixed 5, true, .yes, 210⟩,
    ⟨0xC7, .dcp, .zp, .zeroPage, 2, .fixed 5, false, .yes, 334⟩,
    ⟨0xC8, .iny, .imp, .noneAddressing, 1, .fixed 2, true, .yes, 212⟩,
    ⟨0xC9, .cmp, .imm, .immediate, 2, .fixed 2, true, .yes, 206⟩,
    ⟨0xCA, .dex, .imp, .noneAddressing, 1, .fixed 2, true, .yes, 213⟩,
    ⟨0xCB, .axs, .imm, .immediate, 2, .fixed 2, false, .yes, 342⟩,
    ⟨0xCC, .cpy, .abs, .absolute, 3, .fixed 4, true, .yes, 208⟩,
    ⟨0xCD, .cmp, .abs, .absolute, 3, .fixed 4, true, .yes, 206⟩,
    ⟨0xCE, .dec, .abs, .absolute, 3, .fixed 6, true, .yes, 210⟩,
    ⟨0xCF, .dcp, .abs, .absolute, 3, .fixed 6, false, .yes, 334⟩ ]

/-- Rows 0xD0 to 0xDF. -/
def tableRowD : List Row :=
  [ ⟨0xD0, .bne, .rel, .noneAddressing, 2, .branch 2, true, .yes, 277⟩,
    ⟨0xD1, .cmp, .indY, .indirectY, 2, .pageCross 5, true, .yes, 206⟩,
    ⟨0xD2, .jam, .imp, .noneAddressing, 1, .none, false, .no, 345⟩,
    ⟨0xD3, .dcp, .indY, .indirectY, 2, .fixed 8, false, .yes, 334⟩,
    ⟨0xD4, .nop, .zpX, .zeroPageX, 2, .fixed 4, false, .yes, 344⟩,
    ⟨0xD5, .cmp, .zpX, .zeroPageX, 2, .fixed 4, true, .yes, 206⟩,
    ⟨0xD6, .dec, .zpX, .zeroPageX, 2, .fixed 6, true, .yes, 210⟩,
    ⟨0xD7, .dcp, .zpX, .zeroPageX, 2, .fixed 6, false, .yes, 334⟩,
    ⟨0xD8, .cld, .imp, .noneAddressing, 1, .fixed 2, true, .yes, 315⟩,
    ⟨0xD9, .cmp, .absY, .absoluteY, 3, .pageCross 4, true, .yes, 206⟩,
    ⟨0xDA, .nop, .imp, .noneAddressing, 1, .fixed 2, false, .yes, 343⟩,
    ⟨0xDB, .dcp, .absY, .absoluteY, 3, .fixed 7, false, .yes, 334⟩,
    ⟨0xDC, .nop, .absX, .absoluteX, 3, .pageCross 4, false, .yes, 344⟩,
    ⟨0xDD, .cmp, .absX, .absoluteX, 3, .pageCross 4, true, .yes, 206⟩,
    ⟨0xDE, .dec, .absX, .absoluteX, 3, .fixed 7, true, .yes, 210⟩,
    ⟨0xDF, .dcp, .absX, .absoluteX, 3, .fixed 7, false, .yes, 334⟩ ]

/-- Rows 0xE0 to 0xEF. -/
def tableRowE : List Row :=
  [ ⟨0xE0, .cpx, .imm, .immediate, 2, .fixed 2, true, .yes, 207⟩,
    ⟨0xE1, .sbc, .indX, .indirectX, 2, .fixed 6, true, .yes, 201⟩,
    ⟨0xE2, .nop, .imm, .immediate, 2, .fixed 2, false, .yes, 344⟩,
    ⟨0xE3, .isb, .indX, .indirectX, 2, .fixed 8, false, .yes, 335⟩,
    ⟨0xE4, .cpx, .zp, .zeroPage, 2, .fixed 3, true, .yes, 207⟩,
    ⟨0xE5, .sbc, .zp, .zeroPage, 2, .fixed 3, true, .yes, 201⟩,
    ⟨0xE6, .inc, .zp, .zeroPage, 2, .fixed 5, true, .yes, 209⟩,
    ⟨0xE7, .isb, .zp, .zeroPage, 2, .fixed 5, false, .yes, 335⟩,
    ⟨0xE8, .inx, .imp, .noneAddressing, 1, .fixed 2, true, .yes, 211⟩,
    ⟨0xE9, .sbc, .imm, .immediate, 2, .fixed 2, true, .yes, 201⟩,
    ⟨0xEA, .nop, .imp, .noneAddressing, 1, .fixed 2, true, .yes, 320⟩,
    ⟨0xEB, .sbc, .imm, .immediate, 2, .fixed 2, false, .yes, 338⟩,
    ⟨0xEC, .cpx, .abs, .absolute, 3, .fixed 4, true, .yes, 207⟩,
    ⟨0xED, .sbc, .abs, .absolute, 3, .fixed 4, true, .yes, 201⟩,
    ⟨0xEE, .inc, .abs, .absolute, 3, .fixed 6, true, .yes, 209⟩,
    ⟨0xEF, .isb, .abs, .absolute, 3, .fixed 6, false, .yes, 335⟩ ]

/-- Rows 0xF0 to 0xFF. -/
def tableRowF : List Row :=
  [ ⟨0xF0, .beq, .rel, .noneAddressing, 2, .branch 2, true, .yes, 278⟩,
    ⟨0xF1, .sbc, .indY, .indirectY, 2, .pageCross 5, true, .yes, 201⟩,
    ⟨0xF2, .jam, .imp, .noneAddressing, 1, .none, false, .no, 345⟩,
    ⟨0xF3, .isb, .indY, .indirectY, 2, .fixed 8, false, .yes, 335⟩,
    ⟨0xF4, .nop, .zpX, .zeroPageX, 2, .fixed 4, false, .yes, 344⟩,
    ⟨0xF5, .sbc, .zpX, .zeroPageX, 2, .fixed 4, true, .yes, 201⟩,
    ⟨0xF6, .inc, .zpX, .zeroPageX, 2, .fixed 6, true, .yes, 209⟩,
    ⟨0xF7, .isb, .zpX, .zeroPageX, 2, .fixed 6, false, .yes, 335⟩,
    ⟨0xF8, .sed, .imp, .noneAddressing, 1, .fixed 2, true, .yes, 316⟩,
    ⟨0xF9, .sbc, .absY, .absoluteY, 3, .pageCross 4, true, .yes, 201⟩,
    ⟨0xFA, .nop, .imp, .noneAddressing, 1, .fixed 2, false, .yes, 343⟩,
    ⟨0xFB, .isb, .absY, .absoluteY, 3, .fixed 7, false, .yes, 335⟩,
    ⟨0xFC, .nop, .absX, .absoluteX, 3, .pageCross 4, false, .yes, 344⟩,
    ⟨0xFD, .sbc, .absX, .absoluteX, 3, .pageCross 4, true, .yes, 201⟩,
    ⟨0xFE, .inc, .absX, .absoluteX, 3, .fixed 7, true, .yes, 209⟩,
    ⟨0xFF, .isb, .absX, .absoluteX, 3, .fixed 7, false, .yes, 335⟩ ]

/-- The opcode table: total and immutable, one row per opcode byte (spec/10_state.md R44; R104, R109). -/
def opcodeTable : List Row :=
  tableRow0 ++ tableRow1 ++ tableRow2 ++ tableRow3 ++ tableRow4 ++ tableRow5 ++ tableRow6 ++ tableRow7 ++
    tableRow8 ++ tableRow9 ++ tableRowA ++ tableRowB ++ tableRowC ++ tableRowD ++ tableRowE ++ tableRowF

/-- The sixteen rows of a high nibble. -/
def tableRowOf (high : Nat) : List Row :=
  match high with
  | 0 => tableRow0
  | 1 => tableRow1
  | 2 => tableRow2
  | 3 => tableRow3
  | 4 => tableRow4
  | 5 => tableRow5
  | 6 => tableRow6
  | 7 => tableRow7
  | 8 => tableRow8
  | 9 => tableRow9
  | 10 => tableRowA
  | 11 => tableRowB
  | 12 => tableRowC
  | 13 => tableRowD
  | 14 => tableRowE
  | _ => tableRowF

theorem tableRowOf_length (high : Nat) : (tableRowOf high).length = 16 := by
  unfold tableRowOf; split <;> rfl

/-- The low nibble of an opcode is an index into its row of sixteen. -/
theorem lowNibble_lt (op : Byte) : (op &&& 0x0F#8).toNat < 16 := by
  rw [BitVec.toNat_and]
  exact Nat.lt_of_le_of_lt Nat.and_le_right (by decide)

/-- The row an opcode byte selects (R104). -/
def rowOf (op : Byte) : Row :=
  (tableRowOf (op >>> 4).toNat)[(op &&& 0x0F#8).toNat]'(by rw [tableRowOf_length]; exact lowNibble_lt op)

/-! ## The opcode map (R110), one list per high nibble

`b` is the one operand byte of a 2-byte instruction and `w` the operand word of a 3-byte one. -/

/-- The matrix row 0x of R110. -/
def mapRow0 (b : Byte) (w : Word) : List Instr :=
  [ .brk, .oraIndX b, .jam02, .sloIndX b,
    .nopZp04 b, .oraZp b, .aslZp b, .sloZp b,
    .php, .oraImm b, .aslAcc, .ancImm0B b,
    .nopAbs0C w, .oraAbs w, .aslAbs w, .sloAbs w ]

/-- The matrix row 1x of R110. -/
def mapRow1 (b : Byte) (w : Word) : List Instr :=
  [ .bpl b, .oraIndY b, .jam12, .sloIndY b,
    .nopZpX14 b, .oraZpX b, .aslZpX b, .sloZpX b,
    .clc, .oraAbsY w, .nop1A, .sloAbsY w,
    .nopAbsX1C w, .oraAbsX w, .aslAbsX w, .sloAbsX w ]

/-- The matrix row 2x of R110. -/
def mapRow2 (b : Byte) (w : Word) : List Instr :=
  [ .jsr w, .andIndX b, .jam22, .rlaIndX b,
    .bitZp b, .andZp b, .rolZp b, .rlaZp b,
    .plp, .andImm b, .rolAcc, .ancImm2B b,
    .bitAbs w, .andAbs w, .rolAbs w, .rlaAbs w ]

/-- The matrix row 3x of R110. -/
def mapRow3 (b : Byte) (w : Word) : List Instr :=
  [ .bmi b, .andIndY b, .jam32, .rlaIndY b,
    .nopZpX34 b, .andZpX b, .rolZpX b, .rlaZpX b,
    .sec, .andAbsY w, .nop3A, .rlaAbsY w,
    .nopAbsX3C w, .andAbsX w, .rolAbsX w, .rlaAbsX w ]

/-- The matrix row 4x of R110. -/
def mapRow4 (b : Byte) (w : Word) : List Instr :=
  [ .rti, .eorIndX b, .jam42, .sreIndX b,
    .nopZp44 b, .eorZp b, .lsrZp b, .sreZp b,
    .pha, .eorImm b, .lsrAcc, .alrImm b,
    .jmpAbs w, .eorAbs w, .lsrAbs w, .sreAbs w ]

/-- The matrix row 5x of R110. -/
def mapRow5 (b : Byte) (w : Word) : List Instr :=
  [ .bvc b, .eorIndY b, .jam52, .sreIndY b,
    .nopZpX54 b, .eorZpX b, .lsrZpX b, .sreZpX b,
    .cli, .eorAbsY w, .nop5A, .sreAbsY w,
    .nopAbsX5C w, .eorAbsX w, .lsrAbsX w, .sreAbsX w ]

/-- The matrix row 6x of R110. -/
def mapRow6 (b : Byte) (w : Word) : List Instr :=
  [ .rts, .adcIndX b, .jam62, .rraIndX b,
    .nopZp64 b, .adcZp b, .rorZp b, .rraZp b,
    .pla, .adcImm b, .rorAcc, .arrImm b,
    .jmpInd w, .adcAbs w, .rorAbs w, .rraAbs w ]

/-- The matrix row 7x of R110. -/
def mapRow7 (b : Byte) (w : Word) : List Instr :=
  [ .bvs b, .adcIndY b, .jam72, .rraIndY b,
    .nopZpX74 b, .adcZpX b, .rorZpX b, .rraZpX b,
    .sei, .adcAbsY w, .nop7A, .rraAbsY w,
    .nopAbsX7C w, .adcAbsX w, .rorAbsX w, .rraAbsX w ]

/-- The matrix row 8x of R110. -/
def mapRow8 (b : Byte) (w : Word) : List Instr :=
  [ .nopImm80 b, .staIndX b, .nopImm82 b, .saxIndX b,
    .styZp b, .staZp b, .stxZp b, .saxZp b,
    .dey, .nopImm89 b, .txa, .xaaImm b,
    .styAbs w, .staAbs w, .stxAbs w, .saxAbs w ]

/-- The matrix row 9x of R110. -/
def mapRow9 (b : Byte) (w : Word) : List Instr :=
  [ .bcc b, .staIndY b, .jam92, .ahxIndY b,
    .styZpX b, .staZpX b, .stxZpY b, .saxZpY b,
    .tya, .staAbsY w, .txs, .tasAbsY w,
    .shyAbsX w, .staAbsX w, .shxAbsY w, .ahxAbsY w ]

/-- The matrix row Ax of R110. -/
def mapRowA (b : Byte) (w : Word) : List Instr :=
  [ .ldyImm b, .ldaIndX b, .ldxImm b, .laxIndX b,
    .ldyZp b, .ldaZp b, .ldxZp b, .laxZp b,
    .tay, .ldaImm b, .tax, .lxaImm b,
    .ldyAbs w, .ldaAbs w, .ldxAbs w, .laxAbs w ]

/-- The matrix row Bx of R110. -/
def mapRowB (b : Byte) (w : Word) : List Instr :=
  [ .bcs b, .ldaIndY b, .jamB2, .laxIndY b,
    .ldyZpX b, .ldaZpX b, .ldxZpY b, .laxZpY b,
    .clv, .ldaAbsY w, .tsx, .lasAbsY w,
    .ldyAbsX w, .ldaAbsX w, .ldxAbsY w, .laxAbsY w ]

/-- The matrix row Cx of R110. -/
def mapRowC (b : Byte) (w : Word) : List Instr :=
  [ .cpyImm b, .cmpIndX b, .nopImmC2 b, .dcpIndX b,
    .cpyZp b, .cmpZp b, .decZp b, .dcpZp b,
    .iny, .cmpImm b, .dex, .axsImm b,
    .cpyAbs w, .cmpAbs w, .decAbs w, .dcpAbs w ]

/-- The matrix row Dx of R110. -/
def mapRowD (b : Byte) (w : Word) : List Instr :=
  [ .bne b, .cmpIndY b, .jamD2, .dcpIndY b,
    .nopZpXD4 b, .cmpZpX b, .decZpX b, .dcpZpX b,
    .cld, .cmpAbsY w, .nopDA, .dcpAbsY w,
    .nopAbsXDC w, .cmpAbsX w, .decAbsX w, .dcpAbsX w ]

/-- The matrix row Ex of R110. -/
def mapRowE (b : Byte) (w : Word) : List Instr :=
  [ .cpxImm b, .sbcIndX b, .nopImmE2 b, .isbIndX b,
    .cpxZp b, .sbcZp b, .incZp b, .isbZp b,
    .inx, .sbcImm b, .nop, .sbcImmEB b,
    .cpxAbs w, .sbcAbs w, .incAbs w, .isbAbs w ]

/-- The matrix row Fx of R110. -/
def mapRowF (b : Byte) (w : Word) : List Instr :=
  [ .beq b, .sbcIndY b, .jamF2, .isbIndY b,
    .nopZpXF4 b, .sbcZpX b, .incZpX b, .isbZpX b,
    .sed, .sbcAbsY w, .nopFA, .isbAbsY w,
    .nopAbsXFC w, .sbcAbsX w, .incAbsX w, .isbAbsX w ]

/-- The opcode map (R110): the sixteen instructions of a high nibble, for given operand bytes. -/
def opcodeRow (high : Nat) (b : Byte) (w : Word) : List Instr :=
  match high with
  | 0 => mapRow0 b w
  | 1 => mapRow1 b w
  | 2 => mapRow2 b w
  | 3 => mapRow3 b w
  | 4 => mapRow4 b w
  | 5 => mapRow5 b w
  | 6 => mapRow6 b w
  | 7 => mapRow7 b w
  | 8 => mapRow8 b w
  | 9 => mapRow9 b w
  | 10 => mapRowA b w
  | 11 => mapRowB b w
  | 12 => mapRowC b w
  | 13 => mapRowD b w
  | 14 => mapRowE b w
  | _ => mapRowF b w

theorem opcodeRow_length (high : Nat) (b : Byte) (w : Word) : (opcodeRow high b w).length = 16 := by
  unfold opcodeRow; split <;> rfl

/-- The instruction that three consecutive bytes begin with (R101, R104): every opcode byte has one. -/
def decodeBytes (op b1 b2 : Byte) : Instr :=
  (opcodeRow (op >>> 4).toNat b1 (wordOf b2 b1))[(op &&& 0x0F#8).toNat]'(by rw [opcodeRow_length]; exact lowNibble_lt op)

/-- Why a list of bytes is no instruction. There is no reserved opcode (R108): only bytes can be missing. -/
inductive DecodeError where
  /-- No byte at all. -/
  | noOpcode
  /-- The opcode byte is there and operand bytes are missing. -/
  | missingOperand (op : Byte)
deriving DecidableEq, Repr

/-- Decode the instruction a list of bytes begins with, and give the bytes after it. -/
def decode : List Byte → Except DecodeError (Instr × List Byte)
  | [] => .error .noOpcode
  | op :: rest =>
    match (rowOf op).length, rest with
    | 1, rest => .ok (decodeBytes op 0 0, rest)
    | 2, b1 :: rest => .ok (decodeBytes op b1 0, rest)
    | 3, b1 :: b2 :: rest => .ok (decodeBytes op b1 b2, rest)
    | _, _ => .error (.missingOperand op)

/-! ## The encoder -/

/-- Mnemonic, opcode byte and operand of each instruction (R110). -/
def Instr.parts : Instr → Mnem × Byte × Operand
  | .brk => (.brk, 0x00, .imp)
  | .oraIndX zp => (.ora, 0x01, .indX zp)
  | .jam02 => (.jam, 0x02, .imp)
  | .sloIndX zp => (.slo, 0x03, .indX zp)
  | .nopZp04 zp => (.nop, 0x04, .zp zp)
  | .oraZp zp => (.ora, 0x05, .zp zp)
  | .aslZp zp => (.asl, 0x06, .zp zp)
  | .sloZp zp => (.slo, 0x07, .zp zp)
  | .php => (.php, 0x08, .imp)
  | .oraImm imm => (.ora, 0x09, .imm imm)
  | .aslAcc => (.asl, 0x0A, .acc)
  | .ancImm0B imm => (.anc, 0x0B, .imm imm)
  | .nopAbs0C addr => (.nop, 0x0C, .abs addr)
  | .oraAbs addr => (.ora, 0x0D, .abs addr)
  | .aslAbs addr => (.asl, 0x0E, .abs addr)
  | .sloAbs addr => (.slo, 0x0F, .abs addr)
  | .bpl off => (.bpl, 0x10, .rel off)
  | .oraIndY zp => (.ora, 0x11, .indY zp)
  | .jam12 => (.jam, 0x12, .imp)
  | .sloIndY zp => (.slo, 0x13, .indY zp)
  | .nopZpX14 zp => (.nop, 0x14, .zpX zp)
  | .oraZpX zp => (.ora, 0x15, .zpX zp)
  | .aslZpX zp => (.asl, 0x16, .zpX zp)
  | .sloZpX zp => (.slo, 0x17, .zpX zp)
  | .clc => (.clc, 0x18, .imp)
  | .oraAbsY addr => (.ora, 0x19, .absY addr)
  | .nop1A => (.nop, 0x1A, .imp)
  | .sloAbsY addr => (.slo, 0x1B, .absY addr)
  | .nopAbsX1C addr => (.nop, 0x1C, .absX addr)
  | .oraAbsX addr => (.ora, 0x1D, .absX addr)
  | .aslAbsX addr => (.asl, 0x1E, .absX addr)
  | .sloAbsX addr => (.slo, 0x1F, .absX addr)
  | .jsr addr => (.jsr, 0x20, .dest addr)
  | .andIndX zp => (.and, 0x21, .indX zp)
  | .jam22 => (.jam, 0x22, .imp)
  | .rlaIndX zp => (.rla, 0x23, .indX zp)
  | .bitZp zp => (.bit, 0x24, .zp zp)
  | .andZp zp => (.and, 0x25, .zp zp)
  | .rolZp zp => (.rol, 0x26, .zp zp)
  | .rlaZp zp => (.rla, 0x27, .zp zp)
  | .plp => (.plp, 0x28, .imp)
  | .andImm imm => (.and, 0x29, .imm imm)
  | .rolAcc => (.rol, 0x2A, .acc)
  | .ancImm2B imm => (.anc, 0x2B, .imm imm)
  | .bitAbs addr => (.bit, 0x2C, .abs addr)
  | .andAbs addr => (.and, 0x2D, .abs addr)
  | .rolAbs addr => (.rol, 0x2E, .abs addr)
  | .rlaAbs addr => (.rla, 0x2F, .abs addr)
  | .bmi off => (.bmi, 0x30, .rel off)
  | .andIndY zp => (.and, 0x31, .indY zp)
  | .jam32 => (.jam, 0x32, .imp)
  | .rlaIndY zp => (.rla, 0x33, .indY zp)
  | .nopZpX34 zp => (.nop, 0x34, .zpX zp)
  | .andZpX zp => (.and, 0x35, .zpX zp)
  | .rolZpX zp => (.rol, 0x36, .zpX zp)
  | .rlaZpX zp => (.rla, 0x37, .zpX zp)
  | .sec => (.sec, 0x38, .imp)
  | .andAbsY addr => (.and, 0x39, .absY addr)
  | .nop3A => (.nop, 0x3A, .imp)
  | .rlaAbsY addr => (.rla, 0x3B, .absY addr)
  | .nopAbsX3C addr => (.nop, 0x3C, .absX addr)
  | .andAbsX addr => (.and, 0x3D, .absX addr)
  | .rolAbsX addr => (.rol, 0x3E, .absX addr)
  | .rlaAbsX addr => (.rla, 0x3F, .absX addr)
  | .rti => (.rti, 0x40, .imp)
  | .eorIndX zp => (.eor, 0x41, .indX zp)
  | .jam42 => (.jam, 0x42, .imp)
  | .sreIndX zp => (.sre, 0x43, .indX zp)
  | .nopZp44 zp => (.nop, 0x44, .zp zp)
  | .eorZp zp => (.eor, 0x45, .zp zp)
  | .lsrZp zp => (.lsr, 0x46, .zp zp)
  | .sreZp zp => (.sre, 0x47, .zp zp)
  | .pha => (.pha, 0x48, .imp)
  | .eorImm imm => (.eor, 0x49, .imm imm)
  | .lsrAcc => (.lsr, 0x4A, .acc)
  | .alrImm imm => (.alr, 0x4B, .imm imm)
  | .jmpAbs addr => (.jmp, 0x4C, .dest addr)
  | .eorAbs addr => (.eor, 0x4D, .abs addr)
  | .lsrAbs addr => (.lsr, 0x4E, .abs addr)
  | .sreAbs addr => (.sre, 0x4F, .abs addr)
  | .bvc off => (.bvc, 0x50, .rel off)
  | .eorIndY zp => (.eor, 0x51, .indY zp)
  | .jam52 => (.jam, 0x52, .imp)
  | .sreIndY zp => (.sre, 0x53, .indY zp)
  | .nopZpX54 zp => (.nop, 0x54, .zpX zp)
  | .eorZpX zp => (.eor, 0x55, .zpX zp)
  | .lsrZpX zp => (.lsr, 0x56, .zpX zp)
  | .sreZpX zp => (.sre, 0x57, .zpX zp)
  | .cli => (.cli, 0x58, .imp)
  | .eorAbsY addr => (.eor, 0x59, .absY addr)
  | .nop5A => (.nop, 0x5A, .imp)
  | .sreAbsY addr => (.sre, 0x5B, .absY addr)
  | .nopAbsX5C addr => (.nop, 0x5C, .absX addr)
  | .eorAbsX addr => (.eor, 0x5D, .absX addr)
  | .lsrAbsX addr => (.lsr, 0x5E, .absX addr)
  | .sreAbsX addr => (.sre, 0x5F, .absX addr)
  | .rts => (.rts, 0x60, .imp)
  | .adcIndX zp => (.adc, 0x61, .indX zp)
  | .jam62 => (.jam, 0x62, .imp)
  | .rraIndX zp => (.rra, 0x63, .indX zp)
  | .nopZp64 zp => (.nop, 0x64, .zp zp)
  | .adcZp zp => (.adc, 0x65, .zp zp)
  | .rorZp zp => (.ror, 0x66, .zp zp)
  | .rraZp zp => (.rra, 0x67, .zp zp)
  | .pla => (.pla, 0x68, .imp)
  | .adcImm imm => (.adc, 0x69, .imm imm)
  | .rorAcc => (.ror, 0x6A, .acc)
  | .arrImm imm => (.arr, 0x6B, .imm imm)
  | .jmpInd ptr => (.jmp, 0x6C, .ind ptr)
  | .adcAbs addr => (.adc, 0x6D, .abs addr)
  | .rorAbs addr => (.ror, 0x6E, .abs addr)
  | .rraAbs addr => (.rra, 0x6F, .abs addr)
  | .bvs off => (.bvs, 0x70, .rel off)
  | .adcIndY zp => (.adc, 0x71, .indY zp)
  | .jam72 => (.jam, 0x72, .imp)
  | .rraIndY zp => (.rra, 0x73, .indY zp)
  | .nopZpX74 zp => (.nop, 0x74, .zpX zp)
  | .adcZpX zp => (.adc, 0x75, .zpX zp)
  | .rorZpX zp => (.ror, 0x76, .zpX zp)
  | .rraZpX zp => (.rra, 0x77, .zpX zp)
  | .sei => (.sei, 0x78, .imp)
  | .adcAbsY addr => (.adc, 0x79, .absY addr)
  | .nop7A => (.nop, 0x7A, .imp)
  | .rraAbsY addr => (.rra, 0x7B, .absY addr)
  | .nopAbsX7C addr => (.nop, 0x7C, .absX addr)
  | .adcAbsX addr => (.adc, 0x7D, .absX addr)
  | .rorAbsX addr => (.ror, 0x7E, .absX addr)
  | .rraAbsX addr => (.rra, 0x7F, .absX addr)
  | .nopImm80 imm => (.nop, 0x80, .imm imm)
  | .staIndX zp => (.sta, 0x81, .indX zp)
  | .nopImm82 imm => (.nop, 0x82, .imm imm)
  | .saxIndX zp => (.sax, 0x83, .indX zp)
  | .styZp zp => (.sty, 0x84, .zp zp)
  | .staZp zp => (.sta, 0x85, .zp zp)
  | .stxZp zp => (.stx, 0x86, .zp zp)
  | .saxZp zp => (.sax, 0x87, .zp zp)
  | .dey => (.dey, 0x88, .imp)
  | .nopImm89 imm => (.nop, 0x89, .imm imm)
  | .txa => (.txa, 0x8A, .imp)
  | .xaaImm imm => (.xaa, 0x8B, .imm imm)
  | .styAbs addr => (.sty, 0x8C, .abs addr)
  | .staAbs addr => (.sta, 0x8D, .abs addr)
  | .stxAbs addr => (.stx, 0x8E, .abs addr)
  | .saxAbs addr => (.sax, 0x8F, .abs addr)
  | .bcc off => (.bcc, 0x90, .rel off)
  | .staIndY zp => (.sta, 0x91, .indY zp)
  | .jam92 => (.jam, 0x92, .imp)
  | .ahxIndY zp => (.ahx, 0x93, .indY zp)
  | .styZpX zp => (.sty, 0x94, .zpX zp)
  | .staZpX zp => (.sta, 0x95, .zpX zp)
  | .stxZpY zp => (.stx, 0x96, .zpY zp)
  | .saxZpY zp => (.sax, 0x97, .zpY zp)
  | .tya => (.tya, 0x98, .imp)
  | .staAbsY addr => (.sta, 0x99, .absY addr)
  | .txs => (.txs, 0x9A, .imp)
  | .tasAbsY addr => (.tas, 0x9B, .absY addr)
  | .shyAbsX addr => (.shy, 0x9C, .absX addr)
  | .staAbsX addr => (.sta, 0x9D, .absX addr)
  | .shxAbsY addr => (.shx, 0x9E, .absY addr)
  | .ahxAbsY addr => (.ahx, 0x9F, .absY addr)
  | .ldyImm imm => (.ldy, 0xA0, .imm imm)
  | .ldaIndX zp => (.lda, 0xA1, .indX zp)
  | .ldxImm imm => (.ldx, 0xA2, .imm imm)
  | .laxIndX zp => (.lax, 0xA3, .indX zp)
  | .ldyZp zp => (.ldy, 0xA4, .zp zp)
  | .ldaZp zp => (.lda, 0xA5, .zp zp)
  | .ldxZp zp => (.ldx, 0xA6, .zp zp)
  | .laxZp zp => (.lax, 0xA7, .zp zp)
  | .tay => (.tay, 0xA8, .imp)
  | .ldaImm imm => (.lda, 0xA9, .imm imm)
  | .tax => (.tax, 0xAA, .imp)
  | .lxaImm imm => (.lxa, 0xAB, .imm imm)
  | .ldyAbs addr => (.ldy, 0xAC, .abs addr)
  | .ldaAbs addr => (.lda, 0xAD, .abs addr)
  | .ldxAbs addr => (.ldx, 0xAE, .abs addr)
  | .laxAbs addr => (.lax, 0xAF, .abs addr)
  | .bcs off => (.bcs, 0xB0, .rel off)
  | .ldaIndY zp => (.lda, 0xB1, .indY zp)
  | .jamB2 => (.jam, 0xB2, .imp)
  | .laxIndY zp => (.lax, 0xB3, .indY zp)
  | .ldyZpX zp => (.ldy, 0xB4, .zpX zp)
  | .ldaZpX zp => (.lda, 0xB5, .zpX zp)
  | .ldxZpY zp => (.ldx, 0xB6, .zpY zp)
  | .laxZpY zp => (.lax, 0xB7, .zpY zp)
  | .clv => (.clv, 0xB8, .imp)
  | .ldaAbsY addr => (.lda, 0xB9, .absY addr)
  | .tsx => (.tsx, 0xBA, .imp)
  | .lasAbsY addr => (.las, 0xBB, .absY addr)
  | .ldyAbsX addr => (.ldy, 0xBC, .absX addr)
  | .ldaAbsX addr => (.lda, 0xBD, .absX addr)
  | .ldxAbsY addr => (.ldx, 0xBE, .absY addr)
  | .laxAbsY addr => (.lax, 0xBF, .absY addr)
  | .cpyImm imm => (.cpy, 0xC0, .imm imm)
  | .cmpIndX zp => (.cmp, 0xC1, .indX zp)
  | .nopImmC2 imm => (.nop, 0xC2, .imm imm)
  | .dcpIndX zp => (.dcp, 0xC3, .indX zp)
  | .cpyZp zp => (.cpy, 0xC4, .zp zp)
  | .cmpZp zp => (.cmp, 0xC5, .zp zp)
  | .decZp zp => (.dec, 0xC6, .zp zp)
  | .dcpZp zp => (.dcp, 0xC7, .zp zp)
  | .iny => (.iny, 0xC8, .imp)
  | .cmpImm imm => (.cmp, 0xC9, .imm imm)
  | .dex => (.dex, 0xCA, .imp)
  | .axsImm imm => (.axs, 0xCB, .imm imm)
  | .cpyAbs addr => (.cpy, 0xCC, .abs addr)
  | .cmpAbs addr => (.cmp, 0xCD, .abs addr)
  | .decAbs addr => (.dec, 0xCE, .abs addr)
  | .dcpAbs addr => (.dcp, 0xCF, .abs addr)
  | .bne off => (.bne, 0xD0, .rel off)
  | .cmpIndY zp => (.cmp, 0xD1, .indY zp)
  | .jamD2 => (.jam, 0xD2, .imp)
  | .dcpIndY zp => (.dcp, 0xD3, .indY zp)
  | .nopZpXD4 zp => (.nop, 0xD4, .zpX zp)
  | .cmpZpX zp => (.cmp, 0xD5, .zpX zp)
  | .decZpX zp => (.dec, 0xD6, .zpX zp)
  | .dcpZpX zp => (.dcp, 0xD7, .zpX zp)
  | .cld => (.cld, 0xD8, .imp)
  | .cmpAbsY addr => (.cmp, 0xD9, .absY addr)
  | .nopDA => (.nop, 0xDA, .imp)
  | .dcpAbsY addr => (.dcp, 0xDB, .absY addr)
  | .nopAbsXDC addr => (.nop, 0xDC, .absX addr)
  | .cmpAbsX addr => (.cmp, 0xDD, .absX addr)
  | .decAbsX addr => (.dec, 0xDE, .absX addr)
  | .dcpAbsX addr => (.dcp, 0xDF, .absX addr)
  | .cpxImm imm => (.cpx, 0xE0, .imm imm)
  | .sbcIndX zp => (.sbc, 0xE1, .indX zp)
  | .nopImmE2 imm => (.nop, 0xE2, .imm imm)
  | .isbIndX zp => (.isb, 0xE3, .indX zp)
  | .cpxZp zp => (.cpx, 0xE4, .zp zp)
  | .sbcZp zp => (.sbc, 0xE5, .zp zp)
  | .incZp zp => (.inc, 0xE6, .zp zp)
  | .isbZp zp => (.isb, 0xE7, .zp zp)
  | .inx => (.inx, 0xE8, .imp)
  | .sbcImm imm => (.sbc, 0xE9, .imm imm)
  | .nop => (.nop, 0xEA, .imp)
  | .sbcImmEB imm => (.sbc, 0xEB, .imm imm)
  | .cpxAbs addr => (.cpx, 0xEC, .abs addr)
  | .sbcAbs addr => (.sbc, 0xED, .abs addr)
  | .incAbs addr => (.inc, 0xEE, .abs addr)
  | .isbAbs addr => (.isb, 0xEF, .abs addr)
  | .beq off => (.beq, 0xF0, .rel off)
  | .sbcIndY zp => (.sbc, 0xF1, .indY zp)
  | .jamF2 => (.jam, 0xF2, .imp)
  | .isbIndY zp => (.isb, 0xF3, .indY zp)
  | .nopZpXF4 zp => (.nop, 0xF4, .zpX zp)
  | .sbcZpX zp => (.sbc, 0xF5, .zpX zp)
  | .incZpX zp => (.inc, 0xF6, .zpX zp)
  | .isbZpX zp => (.isb, 0xF7, .zpX zp)
  | .sed => (.sed, 0xF8, .imp)
  | .sbcAbsY addr => (.sbc, 0xF9, .absY addr)
  | .nopFA => (.nop, 0xFA, .imp)
  | .isbAbsY addr => (.isb, 0xFB, .absY addr)
  | .nopAbsXFC addr => (.nop, 0xFC, .absX addr)
  | .sbcAbsX addr => (.sbc, 0xFD, .absX addr)
  | .incAbsX addr => (.inc, 0xFE, .absX addr)
  | .isbAbsX addr => (.isb, 0xFF, .absX addr)

/-- The mnemonic. -/
def Instr.mnem (i : Instr) : Mnem := i.parts.1

/-- The opcode byte. -/
def Instr.opcode (i : Instr) : Byte := i.parts.2.1

/-- The operand. -/
def Instr.operand (i : Instr) : Operand := i.parts.2.2

/-- The syntax form of an operand (R103). -/
def Operand.form : Operand → Form
  | .imp => .imp
  | .acc => .acc
  | .imm _ => .imm
  | .zp _ => .zp
  | .zpX _ => .zpX
  | .zpY _ => .zpY
  | .abs _ => .abs
  | .dest _ => .abs
  | .absX _ => .absX
  | .absY _ => .absY
  | .indX _ => .indX
  | .indY _ => .indY
  | .rel _ => .rel
  | .ind _ => .ind

/-- The addressing-mode tag of an operand (R102, R103). -/
def Operand.mode : Operand → Mode
  | .imp | .acc | .dest _ | .rel _ | .ind _ => .noneAddressing
  | .imm _ => .immediate
  | .zp _ => .zeroPage
  | .zpX _ => .zeroPageX
  | .zpY _ => .zeroPageY
  | .abs _ => .absolute
  | .absX _ => .absoluteX
  | .absY _ => .absoluteY
  | .indX _ => .indirectX
  | .indY _ => .indirectY

/-- The operand bytes, in increasing address order: a word low byte first (R101). -/
def Operand.bytes : Operand → List Byte
  | .imp | .acc => []
  | .imm b | .zp b | .zpX b | .zpY b | .indX b | .indY b | .rel b => [b]
  | .abs w | .dest w | .absX w | .absY w | .ind w => [lowByte w, highByte w]

/-- The length of an instruction in bytes (R101, R103). -/
def Instr.length (i : Instr) : Nat := 1 + i.operand.bytes.length

/-- The bytes of an instruction (R101): the opcode, then the operand bytes. -/
def encode (i : Instr) : List Byte := i.opcode :: i.operand.bytes

/-- A well-formed instruction agrees with the row its opcode selects. -/
def Instr.wf (i : Instr) : Bool :=
  (rowOf i.opcode).describes i.mnem i.opcode i.operand.form i.operand.mode i.length

/-- Decoding the opcode gives `Implemented` (R107). -/
def Instr.implemented (policy : Config.UnstablePolicy) (i : Instr) : Bool :=
  match (rowOf i.opcode).implemented with
  | .yes => true
  | .policy => policy == .implemented
  | .no => false

/-! ## The host's view of a table word -/

/-- The bytes of a word whose bit 0 is the least significant bit of the first byte: three of them, the longest
instruction (R100), with every bit from `nbits` up zero. -/
def tableBytes (nbits w : Nat) : Byte × Byte × Byte :=
  let v := w % 2 ^ nbits
  (BitVec.ofNat 8 v, BitVec.ofNat 8 (v / 2 ^ 8), BitVec.ofNat 8 (v / 2 ^ 16))

/-- The instruction the decoder reads from an instruction whose bits are `w`. -/
def decodeTableWord (nbits w : Nat) : Option Instr :=
  let (b0, b1, b2) := tableBytes nbits w
  match decode [b0, b1, b2] with
  | .ok (i, _) => some i
  | .error _ => none

end Sys2Proof
end

