-- ==== Sys2Proof/Machine/Ops.lean ====
section
/-! DEFINITION. The named operations over memory and registers: sparse memory, the Bus (spec/20_memory.md), the stack
primitives (spec/40_execution.md R150 to R153), raising a fault and entering Faulted (spec/60_exceptions.md R400), and
the end of an instruction (spec/40_execution.md R131 to R133). -/

namespace Sys2Proof.Machine

/-! ## Sparse memory -/

/-- What an unlisted index reads as (log entry 2). -/
def Memory.unlisted : Byte := 0x00

/-- The byte at an index. -/
def Memory.read (k : Nat) : Memory → Byte
  | [] => Memory.unlisted
  | (j, v) :: m => if j = k then v else Memory.read k m

/-- Store a byte at an index, keeping the canonical form. -/
def Memory.write (k : Nat) (v : Byte) : Memory → Memory
  | [] => if v = Memory.unlisted then [] else [(k, v)]
  | (j, w) :: m =>
    if k < j then (if v = Memory.unlisted then (j, w) :: m else (k, v) :: (j, w) :: m)
    else if k = j then (if v = Memory.unlisted then m else (k, v) :: m)
    else (j, w) :: Memory.write k v m

/-- The canonical form, for a memory of `size` bytes: indexes strictly rising and below `size`, no entry equal to
what an unlisted index reads as. -/
def Memory.wf (size : Nat) : Memory → Bool
  | [] => true
  | (k, v) :: m =>
    decide (k < size) && (v != Memory.unlisted) && m.all (fun c => decide (k < c.1)) && Memory.wf size m

/-- The memory that holds a byte sequence from index `k` on. -/
def Memory.ofBytes (k : Nat) : List Byte → Memory
  | [] => []
  | b :: bs => if b = Memory.unlisted then Memory.ofBytes (k + 1) bs else (k, b) :: Memory.ofBytes (k + 1) bs

/-! ## Results of a part of a step -/

/-- What a part of a step ends in: a value and the state so far, or a fault raised in a state (`raise F(info)`,
spec/00_scope.md R9, R10). -/
inductive Res (α : Type) where
  | ok (v : α) (s : State)
  | raise (f : Fault) (s : State)

/-- Run the next part, unless a fault was raised: "A `raise` ends the instruction at once" (R10). -/
def Res.bind {α β : Type} (r : Res α) (k : α → State → Res β) : Res β :=
  match r with
  | .ok v s => k v s
  | .raise f s => .raise f s

/-- `warn <Event>`: append a diagnostic event (spec/00_scope.md R9; spec/60_exceptions.md R408). -/
def State.warn (e : Event) (s : State) : State := { s with diag := s.diag ++ [e] }

/-- Write the register file. -/
def State.setCpu (c : Cpu) (s : State) : State := { s with cpu := c }

/-- Update the register file. -/
def State.mapCpu (f : Cpu → Cpu) (s : State) : State := { s with cpu := f s.cpu }

/-- Write PC. -/
def State.setPc (pc : Word) (s : State) : State := { s with cpu := { s.cpu with pc := pc } }

/-- Write SP. -/
def State.setSp (sp : Byte) (s : State) : State := { s with cpu := { s.cpu with sp := sp } }

/-- Write the run state. -/
def State.setRun (r : Run) (s : State) : State := { s with run := r }

/-- Write the RAM. -/
def State.setRam (ram : Memory) (s : State) : State := { s with bus := { s.bus with ram := ram } }

/-! ## The Bus -/

/-- The regions of the address space (spec/20_memory.md R61). -/
inductive Region where
  | ram
  | ppuStub
  | unmapped
  | prgRom
deriving DecidableEq, Repr

/-- The region of an address (R61). -/
def region (a : Word) : Region :=
  if a ≤ 0x1FFF#16 then .ram
  else if a ≤ 0x3FFF#16 then .ppuStub
  else if 0x8000#16 ≤ a then .prgRom
  else .unmapped

/-- The RAM index of an address in the RAM window: `addr & 0x07FF` (R62). -/
def ramIndex (a : Word) : Nat := (a &&& 0x07FF#16).toNat

/-- The length of the PRG image in bytes (spec/10_state.md R42). -/
def Cart.prgLength (c : Cart) : Nat := c.prgBanks * 0x4000

/-- The PRG index of an address in the PRG window, before its range is checked (R65). -/
def prgIndex (c : Cart) (a : Word) : Nat :=
  let i := a.toNat - 0x8000
  if c.prgLength = 0x4000 then i % 0x4000 else i

/-- MemRead(addr, 1), the Bus byte read (R63, R65). -/
def memRead (a : Word) (s : State) : Res Byte :=
  match region a with
  | .ram => .ok (s.bus.ram.read (ramIndex a)) s
  | .ppuStub => .ok 0x00 (s.warn (.ppuStubRead a))
  | .unmapped => .ok 0x00 (s.warn (.invalidAddressRead a))
  | .prgRom =>
    let i := prgIndex s.bus.cart a
    if i < s.bus.cart.prgLength then .ok (s.bus.cart.prg.read i) s
    else .raise (.prgIndexOutOfRange a i) s

/-- MemWrite(addr, 1, v), the Bus byte write (R64). -/
def memWrite (a : Word) (v : Byte) (s : State) : Res Unit :=
  match region a with
  | .ram => .ok () (s.setRam (s.bus.ram.write (ramIndex a) v))
  | .ppuStub => .ok () (s.warn (.ppuStubWrite a v))
  | .unmapped => .ok () (s.warn (.invalidAddressWrite a v))
  | .prgRom => .raise (.illegalWrite a v) s

/-- MemRead(addr, 2): the low byte first, then the byte at `u16(addr + 1)` (R66). -/
def memRead16 (a : Word) (s : State) : Res Word :=
  (memRead a s).bind fun lo s => (memRead (a + 1#16) s).bind fun hi s => .ok (wordOf hi lo) s

/-- MemWrite(addr, 2, v): the low byte first, then the byte at `u16(addr + 1)` (R66). -/
def memWrite16 (a : Word) (v : Word) (s : State) : Res Unit :=
  (memWrite a (lowByte v) s).bind fun _ s => memWrite (a + 1#16) (highByte v) s

/-- Peek(addr): MemRead without events, and 0x00 where MemRead would fault (spec/60_exceptions.md R442). It is the
model's read of one byte. -/
def Bus.peek (b : Bus) (a : Word) : Byte :=
  match region a with
  | .ram => b.ram.read (ramIndex a)
  | .ppuStub => 0x00
  | .unmapped => 0x00
  | .prgRom => if prgIndex b.cart a < b.cart.prgLength then b.cart.prg.read (prgIndex b.cart a) else 0x00

/-- Peek16(a) (spec/60_exceptions.md R443). -/
def Bus.peek16 (b : Bus) (a : Word) : Word := wordOf (b.peek (a + 1#16)) (b.peek a)

/-! ## The stack -/

/-- `zext_16` (spec/00_scope.md R8). -/
def zext16 (b : Byte) : Word := b.zeroExtend 16

/-- `sext_16` (spec/00_scope.md R8). -/
def sext16 (b : Byte) : Word := b.signExtend 16

/-- The address of the stack byte that SP points at: 0x0100 + SP (spec/10_state.md R38). -/
def stackAddr (sp : Byte) : Word := Config.stackPage + zext16 sp

/-- Push(v): write at SP, then decrement SP (spec/40_execution.md R150). -/
def push (v : Byte) (s : State) : Res Unit :=
  (memWrite (stackAddr s.cpu.sp) v s).bind fun _ s => .ok () (s.setSp (s.cpu.sp - 1#8))

/-- Pop(): increment SP, then read (R151). -/
def pop (s : State) : Res Byte :=
  let s := s.setSp (s.cpu.sp + 1#8)
  memRead (stackAddr s.cpu.sp) s

/-- Push16(v): the high byte first (R152). -/
def push16 (v : Word) (s : State) : Res Unit :=
  (push (highByte v) s).bind fun _ s => push (lowByte v) s

/-- Pop16(): the low byte first (R153). -/
def pop16 (s : State) : Res Word :=
  (pop s).bind fun lo s => (pop s).bind fun hi s => .ok (wordOf hi lo) s

/-! ## Faults, and the end of an instruction -/

/-- Enter Faulted with the record (fault, site) (spec/60_exceptions.md R400). RAM, cartridge and events stay as the
accesses before the fault left them; the registers are unspecified, so they become a free value (R403, log
entry 4). -/
def State.enterFaulted (f : Fault) (site : Site) (s : State) : State :=
  { s with run := .faulted f site, cpu := Config.faultedCpu f.code s.cpu s.bus }

/-- The opcode's address a0, while PC = a0 + 1 (spec/40_execution.md R131). -/
def State.opcodeAddr (s : State) : Word := s.cpu.pc - 1#16

/-- How an instruction reports whether it wrote PC itself (R132). -/
inductive Flow where
  | redirected
  | sequential
deriving DecidableEq, Repr

/-- The end of instruction `i`, run from state `s0`, where PC = a0 + 1: a redirecting instruction leaves PC as it set
it; any other advances PC by `length - 1` (R131 to R133); a raised fault enters Faulted at a0
(spec/60_exceptions.md R400). -/
def finish (i : Instr) (s0 : State) (r : Res Flow) : Out :=
  match r with
  | .ok .redirected s => .next s
  | .ok .sequential s => .next (s.setPc (s.cpu.pc + BitVec.ofNat 16 (i.length - 1)))
  | .raise f s => .next (s.enterFaulted f (.opcodeAt s0.opcodeAddr))

end Sys2Proof.Machine
end

