-- ==== Sys2Proof/Machine/Operands.lean ====
section
/-! DEFINITION. The addressing-mode resolver (spec/40_execution.md R140 to R149), the reading of operands, and the
shapes of instruction that the meanings share. The resolver runs with PC = a0 + 1. An operand byte's VALUE is the
one decoding put into the instruction; its Bus read still happens, where and when the spec has it, for its events and
its fault (log entry 8). -/

namespace Sys2Proof.Machine

/-! ## The resolver -/

/-- Read the operand byte at PC. -/
def operandByte (b : Byte) (s : State) : Res Byte := (memRead s.cpu.pc s).bind fun _ s => .ok b s

/-- Read the operand word at PC, low byte first. -/
def operandWord (w : Word) (s : State) : Res Word := (memRead16 s.cpu.pc s).bind fun _ s => .ok w s

/-- ZpRead16(p): both pointer bytes are taken inside page 0 (R141). -/
def zpRead16 (p : Byte) (s : State) : Res Word :=
  (memRead (zext16 p) s).bind fun lo s => (memRead (zext16 (p + 1#8)) s).bind fun hi s => .ok (wordOf hi lo) s

/-- EA(mode) of an operand (R140 to R149), for the opcode `op` at PC - 1. -/
def resolve (op : Byte) (o : Operand) (s : State) : Res Word :=
  match o with
  | .imm _ => .ok s.cpu.pc s
  | .zp b => (operandByte b s).bind fun b s => .ok (zext16 b) s
  | .zpX b => (operandByte b s).bind fun b s => .ok (zext16 (b + s.cpu.x)) s
  | .zpY b => (operandByte b s).bind fun b s => .ok (zext16 (b + s.cpu.y)) s
  | .abs w => operandWord w s
  | .absX w => (operandWord w s).bind fun w s => .ok (w + zext16 s.cpu.x) s
  | .absY w => (operandWord w s).bind fun w s => .ok (w + zext16 s.cpu.y) s
  | .indX b => (operandByte b s).bind fun b s => zpRead16 (b + s.cpu.x) s
  | .indY b => (operandByte b s).bind fun b s => (zpRead16 b s).bind fun base s => .ok (base + zext16 s.cpu.y) s
  | .imp | .acc | .dest _ | .rel _ | .ind _ => .raise (.unsupportedAddressingMode op s.opcodeAddr) s

/-- EA(mode) of an instruction (R140). -/
def ea (i : Instr) (s : State) : Res Word := resolve i.opcode i.operand s

/-- `M <- MemRead(EA(mode), 1)`: the operand value of an instruction (R140). For Immediate it is byte 1 of the
instruction itself (R142). -/
def readOperand (i : Instr) (s : State) : Res Byte :=
  match i.operand with
  | .imm b => operandByte b s
  | _ => (ea i s).bind fun a s => memRead a s

/-! ## The same, by Peek -/

/-- The zero-page pointer at p, by Peek. -/
def Bus.peekZp16 (b : Bus) (p : Byte) : Word := wordOf (b.peek (zext16 (p + 1#8))) (b.peek (zext16 p))

/-- The value EA(mode) computes, using Peek (spec/60_exceptions.md R443), with PC = a0 + 1; `pc` where the operand has
no address. -/
def peekEa (o : Operand) (c : Cpu) (b : Bus) : Word :=
  match o with
  | .zp z => zext16 z
  | .zpX z => zext16 (z + c.x)
  | .zpY z => zext16 (z + c.y)
  | .abs w => w
  | .absX w => w + zext16 c.x
  | .absY w => w + zext16 c.y
  | .indX z => b.peekZp16 (z + c.x)
  | .indY z => b.peekZp16 z + zext16 c.y
  | .imm _ | .imp | .acc | .dest _ | .rel _ | .ind _ => c.pc

/-- Where the high byte of an indirect target is read: in the pointer's own page when its low byte is 0xFF
(spec/44_control.md R281). -/
def indirectHighAddr (ptr : Word) : Word := if lowByte ptr = 0xFF#8 then ptr &&& 0xFF00#16 else ptr + 1#16

/-- The target of JMP indirect through a pointer, by Peek (R281). -/
def Bus.peekIndirect (b : Bus) (ptr : Word) : Word :=
  wordOf (b.peek (indirectHighAddr ptr)) (b.peek ptr)

/-! ## The shapes of instruction -/

/-- An instruction that touches the register file only. -/
def implied (i : Instr) (f : Cpu → Cpu) (s : State) : Out := finish i s (.ok .sequential (s.mapCpu f))

/-- An instruction that reads its operand value m and updates the register file with it. -/
def withOperand (i : Instr) (f : Byte → Cpu → Cpu) (s : State) : Out :=
  finish i s ((readOperand i s).bind fun m s => .ok .sequential (s.mapCpu (f m)))

/-- An instruction that stores a byte computed from the register file; it does not read its target. -/
def storing (i : Instr) (v : Cpu → Byte) (s : State) : Out :=
  finish i s ((ea i s).bind fun a s => (memWrite a (v s.cpu) s).bind fun _ s => .ok .sequential s)

/-- A read-modify-write instruction: EA once, one read, the modification (which may write C), one write of its
result, then the rest of its effect on the register file (spec/40_execution.md R140). -/
def modifying (i : Instr) (f : Byte → Cpu → Byte × Cpu) (after : Byte → Cpu → Cpu) (s : State) : Out :=
  finish i s ((ea i s).bind fun a s => (memRead a s).bind fun m s =>
    (memWrite a (f m s.cpu).1 (s.setCpu (f m s.cpu).2)).bind fun _ t =>
      .ok .sequential (t.mapCpu (after (f m s.cpu).1)))

/-- The offset byte of a branch. -/
def branchOffset : Operand → Byte
  | .rel off => off
  | _ => 0x00

/-- The operand word of JMP and JSR. -/
def jumpTarget : Operand → Word
  | .dest w | .ind w => w
  | _ => 0x0000

/-- Branch(cond): the offset is read only when the branch is taken (spec/44_control.md R270). -/
def branch (i : Instr) (cond : Cpu → Bool) (s : State) : Out :=
  finish i s (if cond s.cpu then
      (operandByte (branchOffset i.operand) s).bind fun off s => .ok .redirected (s.setPc (s.cpu.pc + 1#16 + sext16 off))
    else .ok .sequential s)

/-- An instruction that pushes one byte. -/
def pushing (i : Instr) (v : Cpu → Byte) (s : State) : Out :=
  finish i s ((push (v s.cpu) s).bind fun _ s => .ok .sequential s)

/-- An instruction that pops one byte and updates the register file with it. -/
def pulling (i : Instr) (f : Byte → Cpu → Cpu) (s : State) : Out :=
  finish i s ((pop s).bind fun b s => .ok .sequential (s.mapCpu (f b)))

end Sys2Proof.Machine
end

