-- ==== Sys2Proof/Machine/Control.lean ====
section
/-! DEFINITION. Branches, jumps, subroutines, RTI and BRK (spec/44_control.md). -/

namespace Sys2Proof.Machine

/-! ## Conditional branches -/

/-- BPL, branch if plus: N = 0 (R271). -/
def opBpl (i : Instr) (s : State) : Out := branch i (fun c => !c.flag .n) s

/-- 0x10 BPL off (R271). -/
def execBpl (off : Byte) (s : State) : Out := opBpl (.bpl off) s

/-- BMI, branch if minus: N = 1 (R272). -/
def opBmi (i : Instr) (s : State) : Out := branch i (fun c => c.flag .n) s

/-- 0x30 BMI off (R272). -/
def execBmi (off : Byte) (s : State) : Out := opBmi (.bmi off) s

/-- BVC, branch if overflow clear: V = 0 (R273). -/
def opBvc (i : Instr) (s : State) : Out := branch i (fun c => !c.flag .v) s

/-- 0x50 BVC off (R273). -/
def execBvc (off : Byte) (s : State) : Out := opBvc (.bvc off) s

/-- BVS, branch if overflow set: V = 1 (R274). -/
def opBvs (i : Instr) (s : State) : Out := branch i (fun c => c.flag .v) s

/-- 0x70 BVS off (R274). -/
def execBvs (off : Byte) (s : State) : Out := opBvs (.bvs off) s

/-- BCC, branch if carry clear: C = 0 (R275). -/
def opBcc (i : Instr) (s : State) : Out := branch i (fun c => !c.flag .c) s

/-- 0x90 BCC off (R275). -/
def execBcc (off : Byte) (s : State) : Out := opBcc (.bcc off) s

/-- BCS, branch if carry set: C = 1 (R276). -/
def opBcs (i : Instr) (s : State) : Out := branch i (fun c => c.flag .c) s

/-- 0xB0 BCS off (R276). -/
def execBcs (off : Byte) (s : State) : Out := opBcs (.bcs off) s

/-- BNE, branch if not equal: Z = 0 (R277). -/
def opBne (i : Instr) (s : State) : Out := branch i (fun c => !c.flag .z) s

/-- 0xD0 BNE off (R277). -/
def execBne (off : Byte) (s : State) : Out := opBne (.bne off) s

/-- BEQ, branch if equal: Z = 1 (R278). -/
def opBeq (i : Instr) (s : State) : Out := branch i (fun c => c.flag .z) s

/-- 0xF0 BEQ off (R278). -/
def execBeq (off : Byte) (s : State) : Out := opBeq (.beq off) s

/-! ## Jumps -/

/-- JMP absolute: `PC <- MemRead(PC, 2)` (R280). -/
def opJmpAbs (i : Instr) (s : State) : Out :=
  finish i s ((operandWord (jumpTarget i.operand) s).bind fun w s => .ok .redirected (s.setPc w))

/-- JMP indirect, with the page-wrap bug (R281). -/
def opJmpInd (i : Instr) (s : State) : Out :=
  finish i s ((operandWord (jumpTarget i.operand) s).bind fun ptr s => (memRead ptr s).bind fun lo s =>
    (memRead (indirectHighAddr ptr) s).bind fun hi s => .ok .redirected (s.setPc (wordOf hi lo)))

/-- 0x4C JMP addr (R280). -/
def execJmpAbs (addr : Word) (s : State) : Out := opJmpAbs (.jmpAbs addr) s

/-- 0x6C JMP (ptr) (R281). -/
def execJmpInd (ptr : Word) (s : State) : Out := opJmpInd (.jmpInd ptr) s

/-! ## Subroutines -/

/-- JSR: push a0 + 2, the address of its last byte, THEN read the target through the Bus (R282). A push may overwrite
the target's bytes, so the target is what memory holds after the pushes (log entry 8). -/
def opJsr (i : Instr) (s : State) : Out :=
  finish i s ((push16 (s.cpu.pc + 1#16) s).bind fun _ s => (memRead16 s.cpu.pc s).bind fun w s =>
    .ok .redirected (s.setPc w))

/-- 0x20 JSR addr (R282). -/
def execJsr (addr : Word) (s : State) : Out := opJsr (.jsr addr) s

/-- RTS: `PC <- Pop16() + 1` (R283). -/
def opRts (i : Instr) (s : State) : Out :=
  finish i s ((pop16 s).bind fun w s => .ok .redirected (s.setPc (w + 1#16)))

/-- 0x60 RTS (R283). -/
def execRts (s : State) : Out := opRts .rts s

/-! ## RTI and BRK -/

/-- RTI: restore P with B = 0 and U = 1, then `PC <- Pop16()`, with no + 1 (R285). -/
def opRti (i : Instr) (s : State) : Out :=
  finish i s ((pop s).bind fun b s =>
    (pop16 (s.mapCpu fun c => { c with p := restoredStatus b })).bind fun w s => .ok .redirected (s.setPc w))

/-- 0x40 RTI (R285). -/
def execRti (s : State) : Out := opRti .rti s

/-- BRK: `run <- Halted`. It pushes nothing, writes no flag and reads no vector (R287). -/
def opBrk (i : Instr) (s : State) : Out := finish i s (.ok .sequential (s.setRun .halted))

/-- 0x00 BRK (R287). -/
def execBrk (s : State) : Out := opBrk .brk s

end Sys2Proof.Machine
end

