-- ==== Sys2Proof/Machine/LoadStore.lean ====
section
/-! DEFINITION. Loads, stores and register transfers (spec/41_load_store_transfer.md). -/

namespace Sys2Proof.Machine

/-! ## Loads -/

/-- LDA: `A <- M; SetZN(A)` (R170). -/
def opLda (i : Instr) (s : State) : Out := withOperand i Cpu.loadA s

/-- 0xA1 LDA (zp,X) (R170). -/
def execLdaIndX (zp : Byte) (s : State) : Out := opLda (.ldaIndX zp) s

/-- 0xA5 LDA zp (R170). -/
def execLdaZp (zp : Byte) (s : State) : Out := opLda (.ldaZp zp) s

/-- 0xA9 LDA #imm (R170). -/
def execLdaImm (imm : Byte) (s : State) : Out := opLda (.ldaImm imm) s

/-- 0xAD LDA addr (R170). -/
def execLdaAbs (addr : Word) (s : State) : Out := opLda (.ldaAbs addr) s

/-- 0xB1 LDA (zp),Y (R170). -/
def execLdaIndY (zp : Byte) (s : State) : Out := opLda (.ldaIndY zp) s

/-- 0xB5 LDA zp,X (R170). -/
def execLdaZpX (zp : Byte) (s : State) : Out := opLda (.ldaZpX zp) s

/-- 0xB9 LDA addr,Y (R170). -/
def execLdaAbsY (addr : Word) (s : State) : Out := opLda (.ldaAbsY addr) s

/-- 0xBD LDA addr,X (R170). -/
def execLdaAbsX (addr : Word) (s : State) : Out := opLda (.ldaAbsX addr) s

/-- LDX: `X <- M; SetZN(X)` (R171). -/
def opLdx (i : Instr) (s : State) : Out := withOperand i Cpu.loadX s

/-- 0xA2 LDX #imm (R171). -/
def execLdxImm (imm : Byte) (s : State) : Out := opLdx (.ldxImm imm) s

/-- 0xA6 LDX zp (R171). -/
def execLdxZp (zp : Byte) (s : State) : Out := opLdx (.ldxZp zp) s

/-- 0xAE LDX addr (R171). -/
def execLdxAbs (addr : Word) (s : State) : Out := opLdx (.ldxAbs addr) s

/-- 0xB6 LDX zp,Y (R171). -/
def execLdxZpY (zp : Byte) (s : State) : Out := opLdx (.ldxZpY zp) s

/-- 0xBE LDX addr,Y (R171). -/
def execLdxAbsY (addr : Word) (s : State) : Out := opLdx (.ldxAbsY addr) s

/-- LDY: `Y <- M; SetZN(Y)` (R172). -/
def opLdy (i : Instr) (s : State) : Out := withOperand i Cpu.loadY s

/-- 0xA0 LDY #imm (R172). -/
def execLdyImm (imm : Byte) (s : State) : Out := opLdy (.ldyImm imm) s

/-- 0xA4 LDY zp (R172). -/
def execLdyZp (zp : Byte) (s : State) : Out := opLdy (.ldyZp zp) s

/-- 0xAC LDY addr (R172). -/
def execLdyAbs (addr : Word) (s : State) : Out := opLdy (.ldyAbs addr) s

/-- 0xB4 LDY zp,X (R172). -/
def execLdyZpX (zp : Byte) (s : State) : Out := opLdy (.ldyZpX zp) s

/-- 0xBC LDY addr,X (R172). -/
def execLdyAbsX (addr : Word) (s : State) : Out := opLdy (.ldyAbsX addr) s

/-! ## Stores -/

/-- STA: store A; no flag (R173). -/
def opSta (i : Instr) (s : State) : Out := storing i (fun c => c.a) s

/-- 0x81 STA (zp,X) (R173). -/
def execStaIndX (zp : Byte) (s : State) : Out := opSta (.staIndX zp) s

/-- 0x85 STA zp (R173). -/
def execStaZp (zp : Byte) (s : State) : Out := opSta (.staZp zp) s

/-- 0x8D STA addr (R173). -/
def execStaAbs (addr : Word) (s : State) : Out := opSta (.staAbs addr) s

/-- 0x91 STA (zp),Y (R173). -/
def execStaIndY (zp : Byte) (s : State) : Out := opSta (.staIndY zp) s

/-- 0x95 STA zp,X (R173). -/
def execStaZpX (zp : Byte) (s : State) : Out := opSta (.staZpX zp) s

/-- 0x99 STA addr,Y (R173). -/
def execStaAbsY (addr : Word) (s : State) : Out := opSta (.staAbsY addr) s

/-- 0x9D STA addr,X (R173). -/
def execStaAbsX (addr : Word) (s : State) : Out := opSta (.staAbsX addr) s

/-- STX: store X; no flag (R174). -/
def opStx (i : Instr) (s : State) : Out := storing i (fun c => c.x) s

/-- 0x86 STX zp (R174). -/
def execStxZp (zp : Byte) (s : State) : Out := opStx (.stxZp zp) s

/-- 0x8E STX addr (R174). -/
def execStxAbs (addr : Word) (s : State) : Out := opStx (.stxAbs addr) s

/-- 0x96 STX zp,Y (R174). -/
def execStxZpY (zp : Byte) (s : State) : Out := opStx (.stxZpY zp) s

/-- STY: store Y; no flag (R175). -/
def opSty (i : Instr) (s : State) : Out := storing i (fun c => c.y) s

/-- 0x84 STY zp (R175). -/
def execStyZp (zp : Byte) (s : State) : Out := opSty (.styZp zp) s

/-- 0x8C STY addr (R175). -/
def execStyAbs (addr : Word) (s : State) : Out := opSty (.styAbs addr) s

/-- 0x94 STY zp,X (R175). -/
def execStyZpX (zp : Byte) (s : State) : Out := opSty (.styZpX zp) s

/-! ## Register transfers -/

/-- TAX: `X <- A; SetZN(X)` (R176). -/
def opTax (i : Instr) (s : State) : Out := implied i (fun c => c.loadX c.a) s

/-- 0xAA TAX (R176). -/
def execTax (s : State) : Out := opTax .tax s

/-- TAY: `Y <- A; SetZN(Y)` (R177). -/
def opTay (i : Instr) (s : State) : Out := implied i (fun c => c.loadY c.a) s

/-- 0xA8 TAY (R177). -/
def execTay (s : State) : Out := opTay .tay s

/-- TXA: `A <- X; SetZN(A)` (R178). -/
def opTxa (i : Instr) (s : State) : Out := implied i (fun c => c.loadA c.x) s

/-- 0x8A TXA (R178). -/
def execTxa (s : State) : Out := opTxa .txa s

/-- TYA: `A <- Y; SetZN(A)` (R179). -/
def opTya (i : Instr) (s : State) : Out := implied i (fun c => c.loadA c.y) s

/-- 0x98 TYA (R179). -/
def execTya (s : State) : Out := opTya .tya s

/-- TSX: `X <- SP; SetZN(X)` (R180). -/
def opTsx (i : Instr) (s : State) : Out := implied i (fun c => c.loadX c.sp) s

/-- 0xBA TSX (R180). -/
def execTsx (s : State) : Out := opTsx .tsx s

/-- TXS: `SP <- X`; no flag (R181). -/
def opTxs (i : Instr) (s : State) : Out := implied i (fun c => { c with sp := c.x }) s

/-- 0x9A TXS (R181). -/
def execTxs (s : State) : Out := opTxs .txs s

end Sys2Proof.Machine
end

