-- ==== Sys2Proof/Machine/Shift.lean ====
section
/-! DEFINITION. Shifts and rotates (spec/43_shift_rotate.md): each has an accumulator form and memory forms. -/

namespace Sys2Proof.Machine

/-- The accumulator form of a shift: `A <- Shift(A); SetZN(A)`. -/
def onAccumulator (f : Byte → Cpu → Byte × Cpu) (c : Cpu) : Cpu := (f c.a c).2.loadA (f c.a c).1

/-- A shift or rotate: on A in the form `acc`, on memory in every other form; there Z and N come from the byte
written back. -/
def shifting (i : Instr) (f : Byte → Cpu → Byte × Cpu) (s : State) : Out :=
  match i.operand with
  | .acc => implied i (onAccumulator f) s
  | _ => modifying i f Cpu.setZN s

/-- ASL (R250). -/
def opAsl (i : Instr) (s : State) : Out := shifting i shiftL s

/-- 0x06 ASL zp (R250). -/
def execAslZp (zp : Byte) (s : State) : Out := opAsl (.aslZp zp) s

/-- 0x0A ASL A (R250). -/
def execAslAcc (s : State) : Out := opAsl .aslAcc s

/-- 0x0E ASL addr (R250). -/
def execAslAbs (addr : Word) (s : State) : Out := opAsl (.aslAbs addr) s

/-- 0x16 ASL zp,X (R250). -/
def execAslZpX (zp : Byte) (s : State) : Out := opAsl (.aslZpX zp) s

/-- 0x1E ASL addr,X (R250). -/
def execAslAbsX (addr : Word) (s : State) : Out := opAsl (.aslAbsX addr) s

/-- LSR (R251). -/
def opLsr (i : Instr) (s : State) : Out := shifting i shiftR s

/-- 0x46 LSR zp (R251). -/
def execLsrZp (zp : Byte) (s : State) : Out := opLsr (.lsrZp zp) s

/-- 0x4A LSR A (R251). -/
def execLsrAcc (s : State) : Out := opLsr .lsrAcc s

/-- 0x4E LSR addr (R251). -/
def execLsrAbs (addr : Word) (s : State) : Out := opLsr (.lsrAbs addr) s

/-- 0x56 LSR zp,X (R251). -/
def execLsrZpX (zp : Byte) (s : State) : Out := opLsr (.lsrZpX zp) s

/-- 0x5E LSR addr,X (R251). -/
def execLsrAbsX (addr : Word) (s : State) : Out := opLsr (.lsrAbsX addr) s

/-- ROL (R252). -/
def opRol (i : Instr) (s : State) : Out := shifting i rotL s

/-- 0x26 ROL zp (R252). -/
def execRolZp (zp : Byte) (s : State) : Out := opRol (.rolZp zp) s

/-- 0x2A ROL A (R252). -/
def execRolAcc (s : State) : Out := opRol .rolAcc s

/-- 0x2E ROL addr (R252). -/
def execRolAbs (addr : Word) (s : State) : Out := opRol (.rolAbs addr) s

/-- 0x36 ROL zp,X (R252). -/
def execRolZpX (zp : Byte) (s : State) : Out := opRol (.rolZpX zp) s

/-- 0x3E ROL addr,X (R252). -/
def execRolAbsX (addr : Word) (s : State) : Out := opRol (.rolAbsX addr) s

/-- ROR (R253). -/
def opRor (i : Instr) (s : State) : Out := shifting i rotR s

/-- 0x66 ROR zp (R253). -/
def execRorZp (zp : Byte) (s : State) : Out := opRor (.rorZp zp) s

/-- 0x6A ROR A (R253). -/
def execRorAcc (s : State) : Out := opRor .rorAcc s

/-- 0x6E ROR addr (R253). -/
def execRorAbs (addr : Word) (s : State) : Out := opRor (.rorAbs addr) s

/-- 0x76 ROR zp,X (R253). -/
def execRorZpX (zp : Byte) (s : State) : Out := opRor (.rorZpX zp) s

/-- 0x7E ROR addr,X (R253). -/
def execRorAbsX (addr : Word) (s : State) : Out := opRor (.rorAbsX addr) s

end Sys2Proof.Machine
end

