-- ==== Sys2Proof/Machine/StackFlags.lean ====
section
/-! DEFINITION. Stack push and pull, flag set and clear, NOP (spec/45_stack_flags_misc.md); the unofficial
NOPs stand here with the official one (spec/46_unofficial.md R343, R344). -/

namespace Sys2Proof.Machine

/-! ## Push and pull -/

/-- PHA: Push(A) (R300). -/
def opPha (i : Instr) (s : State) : Out := pushing i (fun c => c.a) s

/-- 0x48 PHA (R300). -/
def execPha (s : State) : Out := opPha .pha s

/-- PLA: `A <- Pop(); SetZN(A)` (R301). -/
def opPla (i : Instr) (s : State) : Out := pulling i Cpu.loadA s

/-- 0x68 PLA (R301). -/
def execPla (s : State) : Out := opPla .pla s

/-- PHP: Push(P | 0x30); the live P stays (R302). -/
def opPhp (i : Instr) (s : State) : Out := pushing i (fun c => pushedStatus c.p) s

/-- 0x08 PHP (R302). -/
def execPhp (s : State) : Out := opPhp .php s

/-- PLP: `P <- (Pop() & ~0x10) | 0x20` (R303). -/
def opPlp (i : Instr) (s : State) : Out := pulling i (fun b c => { c with p := restoredStatus b }) s

/-- 0x28 PLP (R303). -/
def execPlp (s : State) : Out := opPlp .plp s

/-! ## Flag set and clear -/

/-- CLC (R310). -/
def opClc (i : Instr) (s : State) : Out := implied i (Cpu.setFlag .c false) s

/-- 0x18 CLC (R310). -/
def execClc (s : State) : Out := opClc .clc s

/-- SEC (R311). -/
def opSec (i : Instr) (s : State) : Out := implied i (Cpu.setFlag .c true) s

/-- 0x38 SEC (R311). -/
def execSec (s : State) : Out := opSec .sec s

/-- CLI (R312). -/
def opCli (i : Instr) (s : State) : Out := implied i (Cpu.setFlag .i false) s

/-- 0x58 CLI (R312). -/
def execCli (s : State) : Out := opCli .cli s

/-- SEI (R313). -/
def opSei (i : Instr) (s : State) : Out := implied i (Cpu.setFlag .i true) s

/-- 0x78 SEI (R313). -/
def execSei (s : State) : Out := opSei .sei s

/-- CLV (R314). -/
def opClv (i : Instr) (s : State) : Out := implied i (Cpu.setFlag .v false) s

/-- 0xB8 CLV (R314). -/
def execClv (s : State) : Out := opClv .clv s

/-- CLD (R315). -/
def opCld (i : Instr) (s : State) : Out := implied i (Cpu.setFlag .d false) s

/-- 0xD8 CLD (R315). -/
def execCld (s : State) : Out := opCld .cld s

/-- SED (R316). -/
def opSed (i : Instr) (s : State) : Out := implied i (Cpu.setFlag .d true) s

/-- 0xF8 SED (R316). -/
def execSed (s : State) : Out := opSed .sed s

/-! ## No operation -/

/-- NOP without an operand (R320; spec/46_unofficial.md R343). -/
def opNop (i : Instr) (s : State) : Out := implied i (fun c => c) s

/-- NOP that reads its operand and discards it (spec/46_unofficial.md R344). -/
def opNopRead (i : Instr) (s : State) : Out := withOperand i (fun _ c => c) s

/-- 0x04 NOP zp (R344). -/
def execNopZp04 (zp : Byte) (s : State) : Out := opNopRead (.nopZp04 zp) s

/-- 0x0C NOP addr (R344). -/
def execNopAbs0C (addr : Word) (s : State) : Out := opNopRead (.nopAbs0C addr) s

/-- 0x14 NOP zp,X (R344). -/
def execNopZpX14 (zp : Byte) (s : State) : Out := opNopRead (.nopZpX14 zp) s

/-- 0x1A NOP (R343). -/
def execNop1A (s : State) : Out := opNop .nop1A s

/-- 0x1C NOP addr,X (R344). -/
def execNopAbsX1C (addr : Word) (s : State) : Out := opNopRead (.nopAbsX1C addr) s

/-- 0x34 NOP zp,X (R344). -/
def execNopZpX34 (zp : Byte) (s : State) : Out := opNopRead (.nopZpX34 zp) s

/-- 0x3A NOP (R343). -/
def execNop3A (s : State) : Out := opNop .nop3A s

/-- 0x3C NOP addr,X (R344). -/
def execNopAbsX3C (addr : Word) (s : State) : Out := opNopRead (.nopAbsX3C addr) s

/-- 0x44 NOP zp (R344). -/
def execNopZp44 (zp : Byte) (s : State) : Out := opNopRead (.nopZp44 zp) s

/-- 0x54 NOP zp,X (R344). -/
def execNopZpX54 (zp : Byte) (s : State) : Out := opNopRead (.nopZpX54 zp) s

/-- 0x5A NOP (R343). -/
def execNop5A (s : State) : Out := opNop .nop5A s

/-- 0x5C NOP addr,X (R344). -/
def execNopAbsX5C (addr : Word) (s : State) : Out := opNopRead (.nopAbsX5C addr) s

/-- 0x64 NOP zp (R344). -/
def execNopZp64 (zp : Byte) (s : State) : Out := opNopRead (.nopZp64 zp) s

/-- 0x74 NOP zp,X (R344). -/
def execNopZpX74 (zp : Byte) (s : State) : Out := opNopRead (.nopZpX74 zp) s

/-- 0x7A NOP (R343). -/
def execNop7A (s : State) : Out := opNop .nop7A s

/-- 0x7C NOP addr,X (R344). -/
def execNopAbsX7C (addr : Word) (s : State) : Out := opNopRead (.nopAbsX7C addr) s

/-- 0x80 NOP #imm (R344). -/
def execNopImm80 (imm : Byte) (s : State) : Out := opNopRead (.nopImm80 imm) s

/-- 0x82 NOP #imm (R344). -/
def execNopImm82 (imm : Byte) (s : State) : Out := opNopRead (.nopImm82 imm) s

/-- 0x89 NOP #imm (R344). -/
def execNopImm89 (imm : Byte) (s : State) : Out := opNopRead (.nopImm89 imm) s

/-- 0xC2 NOP #imm (R344). -/
def execNopImmC2 (imm : Byte) (s : State) : Out := opNopRead (.nopImmC2 imm) s

/-- 0xD4 NOP zp,X (R344). -/
def execNopZpXD4 (zp : Byte) (s : State) : Out := opNopRead (.nopZpXD4 zp) s

/-- 0xDA NOP (R343). -/
def execNopDA (s : State) : Out := opNop .nopDA s

/-- 0xDC NOP addr,X (R344). -/
def execNopAbsXDC (addr : Word) (s : State) : Out := opNopRead (.nopAbsXDC addr) s

/-- 0xE2 NOP #imm (R344). -/
def execNopImmE2 (imm : Byte) (s : State) : Out := opNopRead (.nopImmE2 imm) s

/-- 0xEA NOP (R320). -/
def execNop (s : State) : Out := opNop .nop s

/-- 0xF4 NOP zp,X (R344). -/
def execNopZpXF4 (zp : Byte) (s : State) : Out := opNopRead (.nopZpXF4 zp) s

/-- 0xFA NOP (R343). -/
def execNopFA (s : State) : Out := opNop .nopFA s

/-- 0xFC NOP addr,X (R344). -/
def execNopAbsXFC (addr : Word) (s : State) : Out := opNopRead (.nopAbsXFC addr) s

end Sys2Proof.Machine
end

