-- ==== Sys2Proof/Machine/Arith.lean ====
section
/-! DEFINITION. Add, subtract, logic, compare, increment and decrement (spec/42_arith_logic.md). -/

namespace Sys2Proof.Machine

/-! ## Add and subtract -/

/-- ADC: AddToA(M) (R200). -/
def opAdc (i : Instr) (s : State) : Out := withOperand i Cpu.addToA s

/-- 0x61 ADC (zp,X) (R200). -/
def execAdcIndX (zp : Byte) (s : State) : Out := opAdc (.adcIndX zp) s

/-- 0x65 ADC zp (R200). -/
def execAdcZp (zp : Byte) (s : State) : Out := opAdc (.adcZp zp) s

/-- 0x69 ADC #imm (R200). -/
def execAdcImm (imm : Byte) (s : State) : Out := opAdc (.adcImm imm) s

/-- 0x6D ADC addr (R200). -/
def execAdcAbs (addr : Word) (s : State) : Out := opAdc (.adcAbs addr) s

/-- 0x71 ADC (zp),Y (R200). -/
def execAdcIndY (zp : Byte) (s : State) : Out := opAdc (.adcIndY zp) s

/-- 0x75 ADC zp,X (R200). -/
def execAdcZpX (zp : Byte) (s : State) : Out := opAdc (.adcZpX zp) s

/-- 0x79 ADC addr,Y (R200). -/
def execAdcAbsY (addr : Word) (s : State) : Out := opAdc (.adcAbsY addr) s

/-- 0x7D ADC addr,X (R200). -/
def execAdcAbsX (addr : Word) (s : State) : Out := opAdc (.adcAbsX addr) s

/-- SBC: AddToA(~M) (R201), for 0xEB too (spec/46_unofficial.md R338). -/
def opSbc (i : Instr) (s : State) : Out := withOperand i (fun m => Cpu.addToA (~~~m)) s

/-- 0xE1 SBC (zp,X) (R201). -/
def execSbcIndX (zp : Byte) (s : State) : Out := opSbc (.sbcIndX zp) s

/-- 0xE5 SBC zp (R201). -/
def execSbcZp (zp : Byte) (s : State) : Out := opSbc (.sbcZp zp) s

/-- 0xE9 SBC #imm (R201). -/
def execSbcImm (imm : Byte) (s : State) : Out := opSbc (.sbcImm imm) s

/-- 0xEB SBC #imm (R338). -/
def execSbcImmEB (imm : Byte) (s : State) : Out := opSbc (.sbcImmEB imm) s

/-- 0xED SBC addr (R201). -/
def execSbcAbs (addr : Word) (s : State) : Out := opSbc (.sbcAbs addr) s

/-- 0xF1 SBC (zp),Y (R201). -/
def execSbcIndY (zp : Byte) (s : State) : Out := opSbc (.sbcIndY zp) s

/-- 0xF5 SBC zp,X (R201). -/
def execSbcZpX (zp : Byte) (s : State) : Out := opSbc (.sbcZpX zp) s

/-- 0xF9 SBC addr,Y (R201). -/
def execSbcAbsY (addr : Word) (s : State) : Out := opSbc (.sbcAbsY addr) s

/-- 0xFD SBC addr,X (R201). -/
def execSbcAbsX (addr : Word) (s : State) : Out := opSbc (.sbcAbsX addr) s

/-! ## Bitwise logic -/

/-- AND: `A <- A & M; SetZN(A)` (R202). -/
def opAnd (i : Instr) (s : State) : Out := withOperand i (fun m c => c.loadA (c.a &&& m)) s

/-- 0x21 AND (zp,X) (R202). -/
def execAndIndX (zp : Byte) (s : State) : Out := opAnd (.andIndX zp) s

/-- 0x25 AND zp (R202). -/
def execAndZp (zp : Byte) (s : State) : Out := opAnd (.andZp zp) s

/-- 0x29 AND #imm (R202). -/
def execAndImm (imm : Byte) (s : State) : Out := opAnd (.andImm imm) s

/-- 0x2D AND addr (R202). -/
def execAndAbs (addr : Word) (s : State) : Out := opAnd (.andAbs addr) s

/-- 0x31 AND (zp),Y (R202). -/
def execAndIndY (zp : Byte) (s : State) : Out := opAnd (.andIndY zp) s

/-- 0x35 AND zp,X (R202). -/
def execAndZpX (zp : Byte) (s : State) : Out := opAnd (.andZpX zp) s

/-- 0x39 AND addr,Y (R202). -/
def execAndAbsY (addr : Word) (s : State) : Out := opAnd (.andAbsY addr) s

/-- 0x3D AND addr,X (R202). -/
def execAndAbsX (addr : Word) (s : State) : Out := opAnd (.andAbsX addr) s

/-- ORA: `A <- A | M; SetZN(A)` (R203). -/
def opOra (i : Instr) (s : State) : Out := withOperand i (fun m c => c.loadA (c.a ||| m)) s

/-- 0x01 ORA (zp,X) (R203). -/
def execOraIndX (zp : Byte) (s : State) : Out := opOra (.oraIndX zp) s

/-- 0x05 ORA zp (R203). -/
def execOraZp (zp : Byte) (s : State) : Out := opOra (.oraZp zp) s

/-- 0x09 ORA #imm (R203). -/
def execOraImm (imm : Byte) (s : State) : Out := opOra (.oraImm imm) s

/-- 0x0D ORA addr (R203). -/
def execOraAbs (addr : Word) (s : State) : Out := opOra (.oraAbs addr) s

/-- 0x11 ORA (zp),Y (R203). -/
def execOraIndY (zp : Byte) (s : State) : Out := opOra (.oraIndY zp) s

/-- 0x15 ORA zp,X (R203). -/
def execOraZpX (zp : Byte) (s : State) : Out := opOra (.oraZpX zp) s

/-- 0x19 ORA addr,Y (R203). -/
def execOraAbsY (addr : Word) (s : State) : Out := opOra (.oraAbsY addr) s

/-- 0x1D ORA addr,X (R203). -/
def execOraAbsX (addr : Word) (s : State) : Out := opOra (.oraAbsX addr) s

/-- EOR: `A <- A ^ M; SetZN(A)` (R204). -/
def opEor (i : Instr) (s : State) : Out := withOperand i (fun m c => c.loadA (c.a ^^^ m)) s

/-- 0x41 EOR (zp,X) (R204). -/
def execEorIndX (zp : Byte) (s : State) : Out := opEor (.eorIndX zp) s

/-- 0x45 EOR zp (R204). -/
def execEorZp (zp : Byte) (s : State) : Out := opEor (.eorZp zp) s

/-- 0x49 EOR #imm (R204). -/
def execEorImm (imm : Byte) (s : State) : Out := opEor (.eorImm imm) s

/-- 0x4D EOR addr (R204). -/
def execEorAbs (addr : Word) (s : State) : Out := opEor (.eorAbs addr) s

/-- 0x51 EOR (zp),Y (R204). -/
def execEorIndY (zp : Byte) (s : State) : Out := opEor (.eorIndY zp) s

/-- 0x55 EOR zp,X (R204). -/
def execEorZpX (zp : Byte) (s : State) : Out := opEor (.eorZpX zp) s

/-- 0x59 EOR addr,Y (R204). -/
def execEorAbsY (addr : Word) (s : State) : Out := opEor (.eorAbsY addr) s

/-- 0x5D EOR addr,X (R204). -/
def execEorAbsX (addr : Word) (s : State) : Out := opEor (.eorAbsX addr) s

/-- The effect of BIT: Z from A & m, V and N from m (R205). -/
def bitEffect (m : Byte) (c : Cpu) : Cpu :=
  ((c.setFlag .z ((c.a &&& m) == 0x00#8)).setFlag .v (m.getLsbD 6)).setFlag .n (m.getLsbD 7)

/-- BIT (R205). -/
def opBit (i : Instr) (s : State) : Out := withOperand i bitEffect s

/-- 0x24 BIT zp (R205). -/
def execBitZp (zp : Byte) (s : State) : Out := opBit (.bitZp zp) s

/-- 0x2C BIT addr (R205). -/
def execBitAbs (addr : Word) (s : State) : Out := opBit (.bitAbs addr) s

/-! ## Compare -/

/-- CMP: Compare(A, M) (R206). -/
def opCmp (i : Instr) (s : State) : Out := withOperand i (fun m c => c.compare c.a m) s

/-- 0xC1 CMP (zp,X) (R206). -/
def execCmpIndX (zp : Byte) (s : State) : Out := opCmp (.cmpIndX zp) s

/-- 0xC5 CMP zp (R206). -/
def execCmpZp (zp : Byte) (s : State) : Out := opCmp (.cmpZp zp) s

/-- 0xC9 CMP #imm (R206). -/
def execCmpImm (imm : Byte) (s : State) : Out := opCmp (.cmpImm imm) s

/-- 0xCD CMP addr (R206). -/
def execCmpAbs (addr : Word) (s : State) : Out := opCmp (.cmpAbs addr) s

/-- 0xD1 CMP (zp),Y (R206). -/
def execCmpIndY (zp : Byte) (s : State) : Out := opCmp (.cmpIndY zp) s

/-- 0xD5 CMP zp,X (R206). -/
def execCmpZpX (zp : Byte) (s : State) : Out := opCmp (.cmpZpX zp) s

/-- 0xD9 CMP addr,Y (R206). -/
def execCmpAbsY (addr : Word) (s : State) : Out := opCmp (.cmpAbsY addr) s

/-- 0xDD CMP addr,X (R206). -/
def execCmpAbsX (addr : Word) (s : State) : Out := opCmp (.cmpAbsX addr) s

/-- CPX: Compare(X, M) (R207). -/
def opCpx (i : Instr) (s : State) : Out := withOperand i (fun m c => c.compare c.x m) s

/-- 0xE0 CPX #imm (R207). -/
def execCpxImm (imm : Byte) (s : State) : Out := opCpx (.cpxImm imm) s

/-- 0xE4 CPX zp (R207). -/
def execCpxZp (zp : Byte) (s : State) : Out := opCpx (.cpxZp zp) s

/-- 0xEC CPX addr (R207). -/
def execCpxAbs (addr : Word) (s : State) : Out := opCpx (.cpxAbs addr) s

/-- CPY: Compare(Y, M) (R208). -/
def opCpy (i : Instr) (s : State) : Out := withOperand i (fun m c => c.compare c.y m) s

/-- 0xC0 CPY #imm (R208). -/
def execCpyImm (imm : Byte) (s : State) : Out := opCpy (.cpyImm imm) s

/-- 0xC4 CPY zp (R208). -/
def execCpyZp (zp : Byte) (s : State) : Out := opCpy (.cpyZp zp) s

/-- 0xCC CPY addr (R208). -/
def execCpyAbs (addr : Word) (s : State) : Out := opCpy (.cpyAbs addr) s

/-! ## Increment and decrement -/

/-- The modification of INC: no flag is written by it (R209). -/
def incByte (m : Byte) (c : Cpu) : Byte × Cpu := (m + 1#8, c)

/-- The modification of DEC (R210). -/
def decByte (m : Byte) (c : Cpu) : Byte × Cpu := (m - 1#8, c)

/-- INC: `r <- M + 1`, stored, then SetZN(r) (R209). -/
def opInc (i : Instr) (s : State) : Out := modifying i incByte Cpu.setZN s

/-- 0xE6 INC zp (R209). -/
def execIncZp (zp : Byte) (s : State) : Out := opInc (.incZp zp) s

/-- 0xEE INC addr (R209). -/
def execIncAbs (addr : Word) (s : State) : Out := opInc (.incAbs addr) s

/-- 0xF6 INC zp,X (R209). -/
def execIncZpX (zp : Byte) (s : State) : Out := opInc (.incZpX zp) s

/-- 0xFE INC addr,X (R209). -/
def execIncAbsX (addr : Word) (s : State) : Out := opInc (.incAbsX addr) s

/-- DEC: `r <- M - 1`, stored, then SetZN(r) (R210). -/
def opDec (i : Instr) (s : State) : Out := modifying i decByte Cpu.setZN s

/-- 0xC6 DEC zp (R210). -/
def execDecZp (zp : Byte) (s : State) : Out := opDec (.decZp zp) s

/-- 0xCE DEC addr (R210). -/
def execDecAbs (addr : Word) (s : State) : Out := opDec (.decAbs addr) s

/-- 0xD6 DEC zp,X (R210). -/
def execDecZpX (zp : Byte) (s : State) : Out := opDec (.decZpX zp) s

/-- 0xDE DEC addr,X (R210). -/
def execDecAbsX (addr : Word) (s : State) : Out := opDec (.decAbsX addr) s

/-- INX: `X <- X + 1; SetZN(X)` (R211). -/
def opInx (i : Instr) (s : State) : Out := implied i (fun c => c.loadX (c.x + 1#8)) s

/-- 0xE8 INX (R211). -/
def execInx (s : State) : Out := opInx .inx s

/-- INY: `Y <- Y + 1; SetZN(Y)` (R212). -/
def opIny (i : Instr) (s : State) : Out := implied i (fun c => c.loadY (c.y + 1#8)) s

/-- 0xC8 INY (R212). -/
def execIny (s : State) : Out := opIny .iny s

/-- DEX: `X <- X - 1; SetZN(X)` (R213). -/
def opDex (i : Instr) (s : State) : Out := implied i (fun c => c.loadX (c.x - 1#8)) s

/-- 0xCA DEX (R213). -/
def execDex (s : State) : Out := opDex .dex s

/-- DEY: `Y <- Y - 1; SetZN(Y)` (R214). -/
def opDey (i : Instr) (s : State) : Out := implied i (fun c => c.loadY (c.y - 1#8)) s

/-- 0x88 DEY (R214). -/
def execDey (s : State) : Out := opDey .dey s

end Sys2Proof.Machine
end

