-- ==== Sys2Proof/Machine/Unofficial.lean ====
section
/-! DEFINITION. Unofficial opcodes (spec/46_unofficial.md), but for the NOPs and SBC 0xEB. -/

namespace Sys2Proof.Machine

/-! ## Read-modify-write combinations -/

/-- SLO: ShiftL on memory, then `A <- A | r; SetZN(A)` (R330). -/
def opSlo (i : Instr) (s : State) : Out := modifying i shiftL (fun r c => c.loadA (c.a ||| r)) s

/-- 0x03 SLO (zp,X) (R330). -/
def execSloIndX (zp : Byte) (s : State) : Out := opSlo (.sloIndX zp) s

/-- 0x07 SLO zp (R330). -/
def execSloZp (zp : Byte) (s : State) : Out := opSlo (.sloZp zp) s

/-- 0x0F SLO addr (R330). -/
def execSloAbs (addr : Word) (s : State) : Out := opSlo (.sloAbs addr) s

/-- 0x13 SLO (zp),Y (R330). -/
def execSloIndY (zp : Byte) (s : State) : Out := opSlo (.sloIndY zp) s

/-- 0x17 SLO zp,X (R330). -/
def execSloZpX (zp : Byte) (s : State) : Out := opSlo (.sloZpX zp) s

/-- 0x1B SLO addr,Y (R330). -/
def execSloAbsY (addr : Word) (s : State) : Out := opSlo (.sloAbsY addr) s

/-- 0x1F SLO addr,X (R330). -/
def execSloAbsX (addr : Word) (s : State) : Out := opSlo (.sloAbsX addr) s

/-- RLA: RotL on memory, then `A <- A & r; SetZN(A)` (R331). -/
def opRla (i : Instr) (s : State) : Out := modifying i rotL (fun r c => c.loadA (c.a &&& r)) s

/-- 0x23 RLA (zp,X) (R331). -/
def execRlaIndX (zp : Byte) (s : State) : Out := opRla (.rlaIndX zp) s

/-- 0x27 RLA zp (R331). -/
def execRlaZp (zp : Byte) (s : State) : Out := opRla (.rlaZp zp) s

/-- 0x2F RLA addr (R331). -/
def execRlaAbs (addr : Word) (s : State) : Out := opRla (.rlaAbs addr) s

/-- 0x33 RLA (zp),Y (R331). -/
def execRlaIndY (zp : Byte) (s : State) : Out := opRla (.rlaIndY zp) s

/-- 0x37 RLA zp,X (R331). -/
def execRlaZpX (zp : Byte) (s : State) : Out := opRla (.rlaZpX zp) s

/-- 0x3B RLA addr,Y (R331). -/
def execRlaAbsY (addr : Word) (s : State) : Out := opRla (.rlaAbsY addr) s

/-- 0x3F RLA addr,X (R331). -/
def execRlaAbsX (addr : Word) (s : State) : Out := opRla (.rlaAbsX addr) s

/-- SRE: ShiftR on memory, then `A <- A ^ r; SetZN(A)` (R332). -/
def opSre (i : Instr) (s : State) : Out := modifying i shiftR (fun r c => c.loadA (c.a ^^^ r)) s

/-- 0x43 SRE (zp,X) (R332). -/
def execSreIndX (zp : Byte) (s : State) : Out := opSre (.sreIndX zp) s

/-- 0x47 SRE zp (R332). -/
def execSreZp (zp : Byte) (s : State) : Out := opSre (.sreZp zp) s

/-- 0x4F SRE addr (R332). -/
def execSreAbs (addr : Word) (s : State) : Out := opSre (.sreAbs addr) s

/-- 0x53 SRE (zp),Y (R332). -/
def execSreIndY (zp : Byte) (s : State) : Out := opSre (.sreIndY zp) s

/-- 0x57 SRE zp,X (R332). -/
def execSreZpX (zp : Byte) (s : State) : Out := opSre (.sreZpX zp) s

/-- 0x5B SRE addr,Y (R332). -/
def execSreAbsY (addr : Word) (s : State) : Out := opSre (.sreAbsY addr) s

/-- 0x5F SRE addr,X (R332). -/
def execSreAbsX (addr : Word) (s : State) : Out := opSre (.sreAbsX addr) s

/-- RRA: RotR on memory, then AddToA(r) with the carry the rotate left (R333). -/
def opRra (i : Instr) (s : State) : Out := modifying i rotR Cpu.addToA s

/-- 0x63 RRA (zp,X) (R333). -/
def execRraIndX (zp : Byte) (s : State) : Out := opRra (.rraIndX zp) s

/-- 0x67 RRA zp (R333). -/
def execRraZp (zp : Byte) (s : State) : Out := opRra (.rraZp zp) s

/-- 0x6F RRA addr (R333). -/
def execRraAbs (addr : Word) (s : State) : Out := opRra (.rraAbs addr) s

/-- 0x73 RRA (zp),Y (R333). -/
def execRraIndY (zp : Byte) (s : State) : Out := opRra (.rraIndY zp) s

/-- 0x77 RRA zp,X (R333). -/
def execRraZpX (zp : Byte) (s : State) : Out := opRra (.rraZpX zp) s

/-- 0x7B RRA addr,Y (R333). -/
def execRraAbsY (addr : Word) (s : State) : Out := opRra (.rraAbsY addr) s

/-- 0x7F RRA addr,X (R333). -/
def execRraAbsX (addr : Word) (s : State) : Out := opRra (.rraAbsX addr) s

/-- DCP: decrement memory, then Compare(A, r) (R334). -/
def opDcp (i : Instr) (s : State) : Out := modifying i decByte (fun r c => c.compare c.a r) s

/-- 0xC3 DCP (zp,X) (R334). -/
def execDcpIndX (zp : Byte) (s : State) : Out := opDcp (.dcpIndX zp) s

/-- 0xC7 DCP zp (R334). -/
def execDcpZp (zp : Byte) (s : State) : Out := opDcp (.dcpZp zp) s

/-- 0xCF DCP addr (R334). -/
def execDcpAbs (addr : Word) (s : State) : Out := opDcp (.dcpAbs addr) s

/-- 0xD3 DCP (zp),Y (R334). -/
def execDcpIndY (zp : Byte) (s : State) : Out := opDcp (.dcpIndY zp) s

/-- 0xD7 DCP zp,X (R334). -/
def execDcpZpX (zp : Byte) (s : State) : Out := opDcp (.dcpZpX zp) s

/-- 0xDB DCP addr,Y (R334). -/
def execDcpAbsY (addr : Word) (s : State) : Out := opDcp (.dcpAbsY addr) s

/-- 0xDF DCP addr,X (R334). -/
def execDcpAbsX (addr : Word) (s : State) : Out := opDcp (.dcpAbsX addr) s

/-- ISB: increment memory, then AddToA(~r) (R335). -/
def opIsb (i : Instr) (s : State) : Out := modifying i incByte (fun r => Cpu.addToA (~~~r)) s

/-- 0xE3 ISB (zp,X) (R335). -/
def execIsbIndX (zp : Byte) (s : State) : Out := opIsb (.isbIndX zp) s

/-- 0xE7 ISB zp (R335). -/
def execIsbZp (zp : Byte) (s : State) : Out := opIsb (.isbZp zp) s

/-- 0xEF ISB addr (R335). -/
def execIsbAbs (addr : Word) (s : State) : Out := opIsb (.isbAbs addr) s

/-- 0xF3 ISB (zp),Y (R335). -/
def execIsbIndY (zp : Byte) (s : State) : Out := opIsb (.isbIndY zp) s

/-- 0xF7 ISB zp,X (R335). -/
def execIsbZpX (zp : Byte) (s : State) : Out := opIsb (.isbZpX zp) s

/-- 0xFB ISB addr,Y (R335). -/
def execIsbAbsY (addr : Word) (s : State) : Out := opIsb (.isbAbsY addr) s

/-- 0xFF ISB addr,X (R335). -/
def execIsbAbsX (addr : Word) (s : State) : Out := opIsb (.isbAbsX addr) s

/-! ## Other stable combinations -/

/-- LAX: `A <- m; X <- m; SetZN(m)` (R336). -/
def opLax (i : Instr) (s : State) : Out := withOperand i (fun m c => ({ c with x := m } : Cpu).loadA m) s

/-- 0xA3 LAX (zp,X) (R336). -/
def execLaxIndX (zp : Byte) (s : State) : Out := opLax (.laxIndX zp) s

/-- 0xA7 LAX zp (R336). -/
def execLaxZp (zp : Byte) (s : State) : Out := opLax (.laxZp zp) s

/-- 0xAF LAX addr (R336). -/
def execLaxAbs (addr : Word) (s : State) : Out := opLax (.laxAbs addr) s

/-- 0xB3 LAX (zp),Y (R336). -/
def execLaxIndY (zp : Byte) (s : State) : Out := opLax (.laxIndY zp) s

/-- 0xB7 LAX zp,Y (R336). -/
def execLaxZpY (zp : Byte) (s : State) : Out := opLax (.laxZpY zp) s

/-- 0xBF LAX addr,Y (R336). -/
def execLaxAbsY (addr : Word) (s : State) : Out := opLax (.laxAbsY addr) s

/-- SAX: store A & X; no flag (R337). -/
def opSax (i : Instr) (s : State) : Out := storing i (fun c => c.a &&& c.x) s

/-- 0x83 SAX (zp,X) (R337). -/
def execSaxIndX (zp : Byte) (s : State) : Out := opSax (.saxIndX zp) s

/-- 0x87 SAX zp (R337). -/
def execSaxZp (zp : Byte) (s : State) : Out := opSax (.saxZp zp) s

/-- 0x8F SAX addr (R337). -/
def execSaxAbs (addr : Word) (s : State) : Out := opSax (.saxAbs addr) s

/-- 0x97 SAX zp,Y (R337). -/
def execSaxZpY (zp : Byte) (s : State) : Out := opSax (.saxZpY zp) s

/-- The effect of ANC: `A <- A & m; SetZN(A); P.C <- A[7]` (R339). -/
def ancEffect (m : Byte) (c : Cpu) : Cpu := (c.loadA (c.a &&& m)).setFlag .c ((c.a &&& m).getLsbD 7)

/-- ANC (R339). -/
def opAnc (i : Instr) (s : State) : Out := withOperand i ancEffect s

/-- 0x0B ANC #imm (R339). -/
def execAncImm0B (imm : Byte) (s : State) : Out := opAnc (.ancImm0B imm) s

/-- 0x2B ANC #imm (R339). -/
def execAncImm2B (imm : Byte) (s : State) : Out := opAnc (.ancImm2B imm) s

/-- The effect of ALR: `A <- A & m; A <- ShiftR(A); SetZN(A)` (R340). -/
def alrEffect (m : Byte) (c : Cpu) : Cpu := (shiftR (c.a &&& m) c).2.loadA (shiftR (c.a &&& m) c).1

/-- ALR (R340). -/
def opAlr (i : Instr) (s : State) : Out := withOperand i alrEffect s

/-- 0x4B ALR #imm (R340). -/
def execAlrImm (imm : Byte) (s : State) : Out := opAlr (.alrImm imm) s

/-- The effect of ARR: `A <- A & m; A <- RotR(A); P.C <- A[6]; P.V <- A[6] ^ A[5]; SetZN(A)` (R341). -/
def arrEffect (m : Byte) (c : Cpu) : Cpu :=
  let r := (rotR (c.a &&& m) c).1
  ((c.setFlag .c (r.getLsbD 6)).setFlag .v (r.getLsbD 6 != r.getLsbD 5)).loadA r

/-- ARR (R341). -/
def opArr (i : Instr) (s : State) : Out := withOperand i arrEffect s

/-- 0x6B ARR #imm (R341). -/
def execArrImm (imm : Byte) (s : State) : Out := opArr (.arrImm imm) s

/-- The effect of AXS: `t <- A & X; P.C <- (t >= m); X <- t - m; SetZN(X)` (R342). -/
def axsEffect (m : Byte) (c : Cpu) : Cpu :=
  (c.setFlag .c (decide (m ≤ c.a &&& c.x))).loadX ((c.a &&& c.x) - m)

/-- AXS (R342). -/
def opAxs (i : Instr) (s : State) : Out := withOperand i axsEffect s

/-- 0xCB AXS #imm (R342). -/
def execAxsImm (imm : Byte) (s : State) : Out := opAxs (.axsImm imm) s

/-! ## JAM -/

/-- Execution of an opcode that decodes to Unimplemented: UnimplementedOpcode(op, a0), before any operand read
(spec/40_execution.md R135). -/
def unimplemented (i : Instr) (s : State) : Out :=
  finish i s (.raise (.unimplementedOpcode i.opcode s.opcodeAddr) s)

/-- JAM: always Unimplemented (R345). -/
def opJam (i : Instr) (s : State) : Out := unimplemented i s

/-- 0x02 JAM (R345). -/
def execJam02 (s : State) : Out := opJam .jam02 s

/-- 0x12 JAM (R345). -/
def execJam12 (s : State) : Out := opJam .jam12 s

/-- 0x22 JAM (R345). -/
def execJam22 (s : State) : Out := opJam .jam22 s

/-- 0x32 JAM (R345). -/
def execJam32 (s : State) : Out := opJam .jam32 s

/-- 0x42 JAM (R345). -/
def execJam42 (s : State) : Out := opJam .jam42 s

/-- 0x52 JAM (R345). -/
def execJam52 (s : State) : Out := opJam .jam52 s

/-- 0x62 JAM (R345). -/
def execJam62 (s : State) : Out := opJam .jam62 s

/-- 0x72 JAM (R345). -/
def execJam72 (s : State) : Out := opJam .jam72 s

/-- 0x92 JAM (R345). -/
def execJam92 (s : State) : Out := opJam .jam92 s

/-- 0xB2 JAM (R345). -/
def execJamB2 (s : State) : Out := opJam .jamB2 s

/-- 0xD2 JAM (R345). -/
def execJamD2 (s : State) : Out := opJam .jamD2 s

/-- 0xF2 JAM (R345). -/
def execJamF2 (s : State) : Out := opJam .jamF2 s

/-! ## The unstable opcodes -/

/-- The Bus accesses that UNSTABLE_SEM makes at the effective address, in order. An opcode that may not write memory
(R346, R347, R352) makes no write. -/
def unstableAccesses (stores : Bool) (a : Word) : List Config.UnstableAccess → State → Res Unit
  | [], s => .ok () s
  | .read :: l, s => (memRead a s).bind fun _ s => unstableAccesses stores a l s
  | .write v :: l, s =>
    (if stores then memWrite a v s else .ok () s).bind fun _ s => unstableAccesses stores a l s

/-- An unstable opcode (R353). Under the policy Fault it is Unimplemented; under Implemented it computes EA, makes the
accesses of UNSTABLE_SEM there, and writes by `write` the registers its rule lets it write, from the values of
UNSTABLE_SEM (log entry 5). -/
def unstable (i : Instr) (stores : Bool) (write : Config.UnstableEffect → Cpu → Cpu) (s : State) : Out :=
  match s.policy with
  | .fault => unimplemented i s
  | .implemented =>
    finish i s ((ea i s).bind fun a t =>
      (unstableAccesses stores a (Config.unstableSem i.opcode s.cpu s.bus).accesses t).bind fun _ t =>
        .ok .sequential (t.mapCpu (write (Config.unstableSem i.opcode s.cpu s.bus))))

/-- Write Z and N with the values of UNSTABLE_SEM. -/
def unstableZN (e : Config.UnstableEffect) (c : Cpu) : Cpu := (c.setFlag .z e.z).setFlag .n e.n

/-- XAA may write A, Z and N (R346). -/
def opXaa (i : Instr) (s : State) : Out := unstable i false (fun e c => unstableZN e { c with a := e.a }) s

/-- 0x8B XAA #imm (R346). -/
def execXaaImm (imm : Byte) (s : State) : Out := opXaa (.xaaImm imm) s

/-- LXA may write A, X, Z and N (R347). -/
def opLxa (i : Instr) (s : State) : Out :=
  unstable i false (fun e c => unstableZN e { c with a := e.a, x := e.x }) s

/-- 0xAB LXA #imm (R347). -/
def execLxaImm (imm : Byte) (s : State) : Out := opLxa (.lxaImm imm) s

/-- AHX may write memory at EA (R348). -/
def opAhx (i : Instr) (s : State) : Out := unstable i true (fun _ c => c) s

/-- 0x93 AHX (zp),Y (R348). -/
def execAhxIndY (zp : Byte) (s : State) : Out := opAhx (.ahxIndY zp) s

/-- 0x9F AHX addr,Y (R348). -/
def execAhxAbsY (addr : Word) (s : State) : Out := opAhx (.ahxAbsY addr) s

/-- TAS may write SP, and memory at EA (R349). -/
def opTas (i : Instr) (s : State) : Out := unstable i true (fun e c => { c with sp := e.sp }) s

/-- 0x9B TAS addr,Y (R349). -/
def execTasAbsY (addr : Word) (s : State) : Out := opTas (.tasAbsY addr) s

/-- SHY may write memory at EA (R350). -/
def opShy (i : Instr) (s : State) : Out := unstable i true (fun _ c => c) s

/-- 0x9C SHY addr,X (R350). -/
def execShyAbsX (addr : Word) (s : State) : Out := opShy (.shyAbsX addr) s

/-- SHX may write memory at EA (R351). -/
def opShx (i : Instr) (s : State) : Out := unstable i true (fun _ c => c) s

/-- 0x9E SHX addr,Y (R351). -/
def execShxAbsY (addr : Word) (s : State) : Out := opShx (.shxAbsY addr) s

/-- LAS may write A, X, SP, Z and N (R352). -/
def opLas (i : Instr) (s : State) : Out :=
  unstable i false (fun e c => unstableZN e { c with a := e.a, x := e.x, sp := e.sp }) s

/-- 0xBB LAS addr,Y (R352). -/
def execLasAbsY (addr : Word) (s : State) : Out := opLas (.lasAbsY addr) s

end Sys2Proof.Machine
end

