-- ==== Sys2Proof/Machine/Fetch.lean ====
section
/-! DEFINITION. The start of a step: the hook call, the opcode fetch and the decoding of the bytes at PC
(spec/40_execution.md R131, R134; spec/60_exceptions.md R420), and the placing of an instruction where the next step
fetches. -/

namespace Sys2Proof.Machine

/-- The Bus reads of a hook call, in order; they may append events (spec/60_exceptions.md R420). -/
def hookReads : List Word → State → Res Unit
  | [], s => .ok () s
  | a :: l, s => (memRead a s).bind fun _ s => hookReads l s

/-- The Bus writes of a hook call, "applied as MemWrite(addr, 1, v) in list order" (R420). -/
def hookWrites : List (Word × Byte) → State → Res Unit
  | [], s => .ok () s
  | (a, v) :: l, s => (memWrite a v s).bind fun _ s => hookWrites l s

/-- One call of the hook: the reads it made, then the writes it returned (R420). -/
def callHook (c : HookCall) (s : State) : Res Unit :=
  (hookReads c.reads s).bind fun _ s => hookWrites c.writes s

/-- The instruction whose opcode `op` was fetched at PC: its operand bytes are the next bytes, seen by Peek. Their Bus
reads belong to the instruction (log entry 8). -/
def decodeAt (op : Byte) (s : State) : Instr :=
  decodeBytes op (s.bus.peek (s.cpu.pc + 1#16)) (s.bus.peek (s.cpu.pc + 2#16))

/-- Fetch the opcode at PC by a Bus read, advance PC by 1 and decode (spec/40_execution.md R131, R134). -/
def fetch (s : State) : Res Instr :=
  (memRead s.cpu.pc s).bind fun op s => .ok (decodeAt op s) (s.setPc (s.cpu.pc + 1#16))

/-! ## Placing an instruction -/

/-- An address with storage behind it: RAM, or PRG-ROM inside the image. -/
def Bus.hasStorage (b : Bus) (a : Word) : Bool :=
  match region a with
  | .ram => true
  | .prgRom => decide (prgIndex b.cart a < b.cart.prgLength)
  | .ppuStub | .unmapped => false

/-- Put a byte into the storage behind an address, if it has any: the host's backdoor, not a Bus write
(spec/70_reset_and_hazards.md R462). -/
def Bus.place (a : Word) (v : Byte) (b : Bus) : Bus :=
  match region a with
  | .ram => { b with ram := b.ram.write (ramIndex a) v }
  | .prgRom =>
    if prgIndex b.cart a < b.cart.prgLength then
      { b with cart := { b.cart with prg := b.cart.prg.write (prgIndex b.cart a) v } }
    else b
  | .ppuStub | .unmapped => b

/-- Where the next instruction can be placed: at PC when its three bytes have storage there, else at another
address `origin` (log entry 9). -/
def placePc (origin : Word) (s : State) : Word :=
  if s.bus.hasStorage s.cpu.pc && s.bus.hasStorage (s.cpu.pc + 1#16) && s.bus.hasStorage (s.cpu.pc + 2#16) then s.cpu.pc
  else origin

/-- Place three bytes where the next step fetches, with the run state Running and no hook call pending. -/
def State.placeBytes (origin : Word) (b0 b1 b2 : Byte) (s : State) : State :=
  let pc := placePc origin s
  { s with
    cpu := { s.cpu with pc := pc }
    bus := ((s.bus.place pc b0).place (pc + 1#16) b1).place (pc + 2#16) b2
    run := .running
    hooks := [] }

end Sys2Proof.Machine
end

