-- ==== Sys2Proof/Machine/Step.lean ====
section
/-! DEFINITION. One step (spec/40_execution.md R131). -/

namespace Sys2Proof.Machine

/-- One step with a given hook call: hook, fetch, decode, execute. It is taken only when `run = Running` (R131); in
Faulted it answers the recorded fault, in Halted it is refused (log entry 6). -/
def stepWith (c : HookCall) (s : State) : Out :=
  match s.run with
  | .halted => .refused .halted
  | .faulted f _ => .fault f
  | .running =>
    match callHook c s with
    | .raise f t => .next (t.enterFaulted f .hook)
    | .ok _ t =>
      match fetch t with
      | .raise f u => .next (u.enterFaulted f (.opcodeAt t.cpu.pc))
      | .ok i u => exec i u

/-- What the hook does in the next step. -/
def State.nextHook (s : State) : HookCall := s.hooks.headD HookCall.noop

/-- The state without the next hook call. -/
def State.popHook (s : State) : State := { s with hooks := s.hooks.tail }

/-- One step, with the hook call that stands first in `hooks` (log entry 7). -/
def step (s : State) : Host.Outcome State Fault Refusal := stepWith s.nextHook s.popHook

/-- `s` with an instruction stored where `step` fetches its next one: the bits of `w` up to `nbits`, low byte first,
and zeros above, three bytes in all. -/
def State.withFetchWord (s : State) (nbits w : Nat) : State :=
  let (b0, b1, b2) := tableBytes nbits w
  s.placeBytes Config.defaultLoadOrigin b0 b1 b2

end Sys2Proof.Machine
end

