-- ==== Sys2Proof/Machine/Loader.lean ====
section
/-! DEFINITION. The iNES cartridge loader (spec/20_memory.md R80 to R87). -/

namespace Sys2Proof.Machine

/-- A byte of the file; the loader looks only after it has checked the length. -/
def fileByte (buf : List Byte) (k : Nat) : Byte := buf.getD k 0x00

/-- The magic tag: "NES" and 0x1A (R81). -/
def magicTag : List Byte := [0x4E, 0x45, 0x53, 0x1A]

/-- The format version, `buf[7][3:2]` (R82). -/
def formatVersion (buf : List Byte) : BitVec 2 := (fileByte buf 7).extractLsb' 2 2

/-- The size of the PRG image in 16 KiB units (R83). -/
def prgPages (buf : List Byte) : Nat := (fileByte buf 4).toNat

/-- The size of the CHR image in 8 KiB units (R83). -/
def chrPages (buf : List Byte) : Nat := (fileByte buf 5).toNat

/-- The mapper id: the high nibble of byte 7 over the high nibble of byte 6 (R84). -/
def mapperId (buf : List Byte) : Byte := (fileByte buf 7 &&& 0xF0#8) ||| (fileByte buf 6 >>> 4)

/-- The mirroring: four-screen if bit 3 of byte 6 is set, else vertical if bit 0 is, else horizontal (R85). -/
def mirroringOf (buf : List Byte) : Mirroring :=
  if (fileByte buf 6).getLsbD 3 then .fourScreen
  else if (fileByte buf 6).getLsbD 0 then .vertical
  else .horizontal

/-- Where the PRG image starts: after the header and a 512-byte trainer, if there is one (R86). -/
def prgStart (buf : List Byte) : Nat := 16 + (if (fileByte buf 6).getLsbD 2 then 512 else 0)

/-- Where the CHR image starts (R86). -/
def chrStart (buf : List Byte) : Nat := prgStart buf + prgPages buf * 16384

/-- Where the images end (R86). -/
def imagesEnd (buf : List Byte) : Nat := chrStart buf + chrPages buf * 8192

/-- The loader: the checks in the order of R87, then the images sliced out of the buffer (R86). -/
def loadCartridge (buf : List Byte) : Except MalformedReason Cart :=
  if buf.length < 16 then .error .shortHeader
  else if buf.take 4 ≠ magicTag then .error .badMagic
  else if formatVersion buf ≠ 0 then .error .unsupportedVersion
  else if buf.length < imagesEnd buf then .error .truncated
  else .ok
    { prgBanks := prgPages buf
      prg := Memory.ofBytes 0 ((buf.drop (prgStart buf)).take (prgPages buf * 16384))
      chrBanks := chrPages buf
      chr := Memory.ofBytes 0 ((buf.drop (chrStart buf)).take (chrPages buf * 8192))
      mapper := mapperId buf
      mirroring := mirroringOf buf
      harness := false }

end Sys2Proof.Machine
end

