-- ==== Sys2Proof/Machine/Tracer.lean ====
section
/-! DEFINITION. The instruction tracer (spec/60_exceptions.md R440 to R447): one line of text for the instruction at
PC, a function of the register file and the Bus alone. It is built as a list of characters. -/

namespace Sys2Proof.Machine

/-! ## Characters -/

/-- The upper-case hex digit of a number below 16. -/
def hexDigit (n : Nat) : Char := Char.ofNat (if n < 10 then 48 + n else 55 + n)

/-- `%02X`. -/
def hex2 (b : Byte) : List Char := [hexDigit (b.toNat / 16), hexDigit (b.toNat % 16)]

/-- `%04X`. -/
def hex4 (w : Word) : List Char := hex2 (highByte w) ++ hex2 (lowByte w)

/-- Pad on the right to a width, as `%-8s` does. -/
def padRight (n : Nat) (l : List Char) : List Char := l ++ List.replicate (n - l.length) ' '

/-- Pad on the left to a width, as `%4s` does. -/
def padLeft (n : Nat) (l : List Char) : List Char := List.replicate (n - l.length) ' ' ++ l

/-- Remove trailing blanks. -/
def trimRight (l : List Char) : List Char := (l.reverse.dropWhile (· == ' ')).reverse

/-- The name of a mnemonic. -/
def mnemName : Mnem → List Char
  | .lda => ['L', 'D', 'A']
  | .ldx => ['L', 'D', 'X']
  | .ldy => ['L', 'D', 'Y']
  | .sta => ['S', 'T', 'A']
  | .stx => ['S', 'T', 'X']
  | .sty => ['S', 'T', 'Y']
  | .tax => ['T', 'A', 'X']
  | .tay => ['T', 'A', 'Y']
  | .txa => ['T', 'X', 'A']
  | .tya => ['T', 'Y', 'A']
  | .tsx => ['T', 'S', 'X']
  | .txs => ['T', 'X', 'S']
  | .adc => ['A', 'D', 'C']
  | .sbc => ['S', 'B', 'C']
  | .and => ['A', 'N', 'D']
  | .ora => ['O', 'R', 'A']
  | .eor => ['E', 'O', 'R']
  | .bit => ['B', 'I', 'T']
  | .cmp => ['C', 'M', 'P']
  | .cpx => ['C', 'P', 'X']
  | .cpy => ['C', 'P', 'Y']
  | .inc => ['I', 'N', 'C']
  | .dec => ['D', 'E', 'C']
  | .inx => ['I', 'N', 'X']
  | .iny => ['I', 'N', 'Y']
  | .dex => ['D', 'E', 'X']
  | .dey => ['D', 'E', 'Y']
  | .asl => ['A', 'S', 'L']
  | .lsr => ['L', 'S', 'R']
  | .rol => ['R', 'O', 'L']
  | .ror => ['R', 'O', 'R']
  | .bpl => ['B', 'P', 'L']
  | .bmi => ['B', 'M', 'I']
  | .bvc => ['B', 'V', 'C']
  | .bvs => ['B', 'V', 'S']
  | .bcc => ['B', 'C', 'C']
  | .bcs => ['B', 'C', 'S']
  | .bne => ['B', 'N', 'E']
  | .beq => ['B', 'E', 'Q']
  | .jmp => ['J', 'M', 'P']
  | .jsr => ['J', 'S', 'R']
  | .rts => ['R', 'T', 'S']
  | .rti => ['R', 'T', 'I']
  | .brk => ['B', 'R', 'K']
  | .pha => ['P', 'H', 'A']
  | .pla => ['P', 'L', 'A']
  | .php => ['P', 'H', 'P']
  | .plp => ['P', 'L', 'P']
  | .clc => ['C', 'L', 'C']
  | .sec => ['S', 'E', 'C']
  | .cli => ['C', 'L', 'I']
  | .sei => ['S', 'E', 'I']
  | .clv => ['C', 'L', 'V']
  | .cld => ['C', 'L', 'D']
  | .sed => ['S', 'E', 'D']
  | .nop => ['N', 'O', 'P']
  | .slo => ['S', 'L', 'O']
  | .rla => ['R', 'L', 'A']
  | .sre => ['S', 'R', 'E']
  | .rra => ['R', 'R', 'A']
  | .dcp => ['D', 'C', 'P']
  | .isb => ['I', 'S', 'B']
  | .lax => ['L', 'A', 'X']
  | .sax => ['S', 'A', 'X']
  | .anc => ['A', 'N', 'C']
  | .alr => ['A', 'L', 'R']
  | .arr => ['A', 'R', 'R']
  | .axs => ['A', 'X', 'S']
  | .jam => ['J', 'A', 'M']
  | .xaa => ['X', 'A', 'A']
  | .lxa => ['L', 'X', 'A']
  | .ahx => ['A', 'H', 'X']
  | .tas => ['T', 'A', 'S']
  | .shy => ['S', 'H', 'Y']
  | .shx => ['S', 'H', 'X']
  | .las => ['L', 'A', 'S']

/-! ## The line -/

/-- The mnemonic as rendered: unofficial ones have a leading `*` (R441). -/
def traceMnem (r : Row) : List Char := if r.official then mnemName r.mnem else '*' :: mnemName r.mnem

/-- The operand rendering for instruction `i` with PC = a0 (R443). `peekEa` takes PC = a0 + 1; no form here reads
it. -/
def traceOperand (i : Instr) (c : Cpu) (b : Bus) : List Char :=
  let addr := peekEa i.operand c b
  let value := [' ', '=', ' '] ++ hex2 (b.peek addr)
  match i.operand with
  | .imp => []
  | .acc => ['A']
  | .imm v => ['#', '$'] ++ hex2 v
  | .zp z => ['$'] ++ hex2 z ++ value
  | .zpX z => ['$'] ++ hex2 z ++ [',', 'X', ' ', '@', ' '] ++ hex2 (z + c.x) ++ value
  | .zpY z => ['$'] ++ hex2 z ++ [',', 'Y', ' ', '@', ' '] ++ hex2 (z + c.y) ++ value
  | .abs w => ['$'] ++ hex4 w ++ value
  | .dest w => ['$'] ++ hex4 w
  | .absX w => ['$'] ++ hex4 w ++ [',', 'X', ' ', '@', ' '] ++ hex4 addr ++ value
  | .absY w => ['$'] ++ hex4 w ++ [',', 'Y', ' ', '@', ' '] ++ hex4 addr ++ value
  | .indX z =>
    ['(', '$'] ++ hex2 z ++ [',', 'X', ')', ' ', '@', ' '] ++ hex2 (z + c.x) ++ [' ', '=', ' '] ++ hex4 addr ++ value
  | .indY z =>
    ['(', '$'] ++ hex2 z ++ [')', ',', 'Y', ' ', '=', ' '] ++ hex4 (b.peekZp16 z) ++ [' ', '@', ' '] ++ hex4 addr ++
      value
  | .rel off => ['$'] ++ hex4 (c.pc + 2#16 + sext16 off)
  | .ind p => ['(', '$'] ++ hex4 p ++ [')', ' ', '=', ' '] ++ hex4 (b.peekIndirect p)

/-- The raw bytes of an instruction of length `n` at PC, in hex, joined by blanks (R442). -/
def traceBytes (n : Nat) (c : Cpu) (b : Bus) : List Char :=
  match n with
  | 1 => hex2 (b.peek c.pc)
  | 2 => hex2 (b.peek c.pc) ++ [' '] ++ hex2 (b.peek (c.pc + 1#16))
  | _ => hex2 (b.peek c.pc) ++ [' '] ++ hex2 (b.peek (c.pc + 1#16)) ++ [' '] ++ hex2 (b.peek (c.pc + 2#16))

/-- The instruction at PC, by Peek (R441, R442). -/
def peekInstr (c : Cpu) (b : Bus) : Instr := decodeBytes (b.peek c.pc) (b.peek (c.pc + 1#16)) (b.peek (c.pc + 2#16))

/-- The part of the line before the registers (R444). -/
def traceAsm (c : Cpu) (b : Bus) : List Char :=
  let i := peekInstr c b
  let r := rowOf (b.peek c.pc)
  trimRight (hex4 c.pc ++ [' ', ' '] ++ padRight 8 (traceBytes r.length c b) ++ [' '] ++ padLeft 4 (traceMnem r) ++
    [' '] ++ traceOperand i c b)

/-- The register dump (R444). P is the live status byte. -/
def traceRegs (c : Cpu) : List Char :=
  [' ', 'A', ':'] ++ hex2 c.a ++ [' ', 'X', ':'] ++ hex2 c.x ++ [' ', 'Y', ':'] ++ hex2 c.y ++ [' ', 'P', ':'] ++
    hex2 c.p ++ [' ', 'S', 'P', ':'] ++ hex2 c.sp

/-- The trace line as characters: padded to 47 columns, then the registers, all upper case (R444). -/
def traceChars (c : Cpu) (b : Bus) : List Char := (padRight 47 (traceAsm c b) ++ traceRegs c).map Char.toUpper

/-- `trace(cpu, bus)` (R440, R445). -/
def trace (c : Cpu) (b : Bus) : String := String.ofList (traceChars c b)

end Sys2Proof.Machine
end

