-- ==== Sys2Proof/Machine/HostOps.lean ====
section
/-! DEFINITION. Construction of a session and the host operations (spec/70_reset_and_hazards.md R460 to R470), and the
platform conventions (spec/60_exceptions.md R425). Each operation runs between steps. A refused one changes nothing. -/

namespace Sys2Proof.Machine

/-! ## Construction -/

/-- Where a session's cartridge comes from (R460). -/
inductive Source where
  | rom (buf : List Byte)
  | harness
deriving DecidableEq, Repr

/-- The cartridge of a session (R460). Of a harness session it is HARNESS_CART, marked so. -/
def Source.cart (p : Config.Params) : Source → Except MalformedReason Cart
  | .harness => .ok { p.harnessCart with harness := true }
  | .rom buf => loadCartridge buf

/-- The RAM that RAM_INIT gives (spec/00_scope.md R7; spec/10_state.md R41). -/
def initialRam (ramInit : Nat → Byte) : Memory := Memory.ofBytes 0 ((List.range 0x800).map ramInit)

/-- NewSession(src) (R460), for the parameters `p`. The registers hold no value a claim may use before the first reset,
so they are an argument too (log entry 3). A malformed cartridge leaves no session. -/
def newSession (p : Config.Params) (src : Source) (cpu : Cpu) : Out :=
  match src.cart p with
  | .error r => .fault (.malformedCartridge r)
  | .ok cart =>
    .next
      { cpu := cpu
        bus := { ram := initialRam p.ramInit, cart := cart }
        run := .halted
        diag := []
        policy := p.unstablePolicy
        hooks := [] }

/-- Run a host operation unless the session is Faulted, which is terminal (spec/60_exceptions.md R404): then it is refused
and returns the fault record. -/
def unlessFaulted {α : Type} (s : State) (k : Host.Outcome α Fault Refusal) : Host.Outcome α Fault Refusal :=
  match s.run with
  | .faulted f site => .refused (.sessionFaulted f site)
  | .running | .halted => k

/-! ## Reset -/

/-- The effect of reset: the registers, PC from the reset vector through the Bus, Running (R461). -/
def resetSession (s : State) : State :=
  match memRead16 Config.resetVector s with
  | .ok pc t => { t with cpu := Cpu.reset pc, run := .running }
  | .raise f t => t.enterFaulted f .reset

/-- `reset()` as a host operation (R463). -/
def hostReset (s : State) : Out := unlessFaulted s (.next (resetSession s))

/-! ## Load -/

/-- Write the bytes of a program from address `a` on into the storage behind it; none where a byte has no storage
(R462). -/
def loadBytes (a : Nat) : List Byte → Bus → Option Bus
  | [], b => some b
  | v :: l, b =>
    if b.hasStorage (BitVec.ofNat 16 a) then loadBytes (a + 1) l (b.place (BitVec.ofNat 16 a) v) else none

/-- Set the reset vector in the cartridge's image (R462). -/
def Bus.setVector (o : Word) (b : Bus) : Bus :=
  (b.place Config.resetVector (lowByte o)).place (Config.resetVector + 1#16) (highByte o)

/-- `load(program, O)`: a host backdoor, allowed only on the harness cartridge. It raises no fault, appends no event,
and changes neither the registers nor `run` (R462). Where the cartridge has no bank for the vector it is refused (log
entry 10). -/
def hostLoad (program : List Byte) (o : Word) (s : State) : Out :=
  unlessFaulted s
    (if s.bus.cart.harness then
      if 0x10000 < o.toNat + program.length then .refused .loadPastEnd
      else
        match loadBytes o.toNat program s.bus with
        | none => .refused .loadNoStorage
        | some b =>
          if b.hasStorage Config.resetVector then .next { s with bus := b.setVector o } else .refused .loadNoStorage
    else .refused .notHarnessCart)

/-! ## Bus accesses, trace and presets -/

/-- The end of a host access: a fault leaves the session Faulted with site Host (R464). -/
def hostAccess {α : Type} (r : Res α) : Host.Outcome (Option α × State) Fault Refusal :=
  match r with
  | .ok v s => .next (some v, s)
  | .raise f s => .next (none, s.enterFaulted f .host)

/-- `mem_read(addr)` (R464). -/
def hostMemRead (a : Word) (s : State) : Host.Outcome (Option Byte × State) Fault Refusal :=
  unlessFaulted s (hostAccess (memRead a s))

/-- `mem_write(addr, v)` (R464). -/
def hostMemWrite (a : Word) (v : Byte) (s : State) : Host.Outcome (Option Unit × State) Fault Refusal :=
  unlessFaulted s (hostAccess (memWrite a v s))

/-- `mem_read_u16(addr)` (R464). -/
def hostMemRead16 (a : Word) (s : State) : Host.Outcome (Option Word × State) Fault Refusal :=
  unlessFaulted s (hostAccess (memRead16 a s))

/-- `mem_write_u16(addr, v)` (R464). -/
def hostMemWrite16 (a v : Word) (s : State) : Host.Outcome (Option Unit × State) Fault Refusal :=
  unlessFaulted s (hostAccess (memWrite16 a v s))

/-- `trace()`: allowed in every run state, and it changes nothing (R465). -/
def hostTrace (s : State) : String := trace s.cpu s.bus

/-- A register preset, defined only between reset and run (R469). A P with U = 0 has U forced to 1 (R470, log entry
11). -/
def hostPreset (c : Cpu) (s : State) : Out :=
  match s.run with
  | .running => .next { s with cpu := { c with p := c.p ||| 0x20#8 } }
  | .halted => .refused .presetNotRunning
  | .faulted f site => .refused (.sessionFaulted f site)

/-! ## Run -/

/-- The run loop: Step while `run = Running` (spec/40_execution.md R130), with the hook as a host function
(spec/60_exceptions.md R420). Running out of fuel is "no result" (log entry 12). -/
def runLoop (hook : Cpu → Bus → HookCall) : Nat → State → Option State
  | 0, s => if s.run = .running then none else some s
  | k + 1, s =>
    match s.run with
    | .running =>
      match stepWith (hook s.cpu s.bus) s with
      | .next t => runLoop hook k t
      | .fault _ | .refused _ => none
    | _ => some s

/-- `run_with_step_hook(h)`: from Halted it resumes at the current PC; in Faulted it takes no step, is refused and returns
the recorded fault (R466). -/
def hostRunWith (hook : Cpu → Bus → HookCall) (fuel : Nat) (s : State) :
    Host.Outcome (Option State) Fault Refusal :=
  unlessFaulted s (.next (runLoop hook fuel (s.setRun .running)))

/-- `run()`: with the no-op hook (R466). -/
def hostRun (fuel : Nat) (s : State) : Host.Outcome (Option State) Fault Refusal :=
  hostRunWith (fun _ _ => HookCall.noop) fuel s

/-- `load_and_run(program)`: load at LOAD_ORIGIN, reset, run (R468). -/
def loadAndRun (p : Config.Params) (program : List Byte) (fuel : Nat) (s : State) : Host.Outcome (Option State) Fault Refusal :=
  match hostLoad program p.loadOrigin s with
  | .next t => hostRun fuel (resetSession t)
  | .fault f => .fault f
  | .refused r => .refused r

/-! ## Platform conventions -/

/-- The host loop's writes of one step, as a hook call: a pseudo-random byte at HOST_RNG_ADDR, and on a key event an input
byte at HOST_INPUT_ADDR (spec/60_exceptions.md R425). The core does not interpret them. -/
def platformHook (p : Config.Params) (rng : Byte) (key : Option Byte) : HookCall :=
  { reads := []
    writes := (zext16 p.hostRngAddr, rng) ::
      (match key with
        | some k => [(zext16 p.hostInputAddr, k)]
        | none => []) }

/-- The framebuffer window 0x0200 to 0x05FF, which the host reads each step (R425). -/
def framebuffer (b : Bus) : List Byte := (List.range 0x400).map fun k => b.peek (BitVec.ofNat 16 (0x0200 + k))

end Sys2Proof.Machine
end

