-- ==== Sys2Proof/Safety.lean ====
section
/-! DEFINITION. The words statements are written in: which addresses can be read and written, what an access adds to
the event list, the accesses of an operand, what stays unchanged, and the machine's invariant. -/

namespace Sys2Proof.Machine

/-! ## Addresses -/

/-- A Bus read of this address raises no fault: it is outside the PRG window, or inside the PRG image
(spec/20_memory.md R63, R65). -/
def Bus.readable (b : Bus) (a : Word) : Bool :=
  region a != .prgRom || decide (prgIndex b.cart a < b.cart.prgLength)

/-- Every address of a list can be read. -/
def Bus.readableAll (b : Bus) (l : List Word) : Bool := l.all b.readable

/-- A Bus write to this address raises no fault: it is outside the PRG window (R64). -/
def writable (a : Word) : Bool := region a != .prgRom

/-- Two addresses reach the same RAM byte (R62). -/
def sameRamByte (a a' : Word) : Bool := region a == .ram && region a' == .ram && ramIndex a == ramIndex a'

/-! ## Events -/

/-- The event a Bus read appends (R63). -/
def readEvents (a : Word) : List Event :=
  match region a with
  | .ppuStub => [.ppuStubRead a]
  | .unmapped => [.invalidAddressRead a]
  | .ram | .prgRom => []

/-- The event a Bus write appends (R64). -/
def writeEvents (a : Word) (v : Byte) : List Event :=
  match region a with
  | .ppuStub => [.ppuStubWrite a v]
  | .unmapped => [.invalidAddressWrite a v]
  | .ram | .prgRom => []

/-- The events of a list of Bus reads, in order. -/
def readEventsAll (l : List Word) : List Event := l.flatMap readEvents

/-! ## The accesses of an operand, with PC = a0 + 1 -/

/-- The addresses EA(mode) reads, in order: operand bytes, then pointer bytes (spec/40_execution.md R142 to R148). -/
def eaReads (o : Operand) (c : Cpu) : List Word :=
  match o with
  | .zp _ | .zpX _ | .zpY _ => [c.pc]
  | .abs _ | .absX _ | .absY _ => [c.pc, c.pc + 1#16]
  | .indX z => [c.pc, zext16 (z + c.x), zext16 (z + c.x + 1#8)]
  | .indY z => [c.pc, zext16 z, zext16 (z + 1#8)]
  | .imm _ | .imp | .acc | .dest _ | .rel _ | .ind _ => []

/-- The addresses an instruction that reads its operand value reads, in order: those of EA, then the operand's. -/
def operandReads (o : Operand) (c : Cpu) (b : Bus) : List Word := eaReads o c ++ [peekEa o c b]

/-- The value of an operand: the immediate byte, or the byte at EA. -/
def operandValue (o : Operand) (c : Cpu) (b : Bus) : Byte :=
  match o with
  | .imm v => v
  | _ => b.peek (peekEa o c b)

/-! ## What an instruction leaves and where it goes -/

/-- The address of the next instruction in sequence, with PC = a0 + 1: a0 + length (R133). -/
def nextPc (i : Instr) (c : Cpu) : Word := c.pc - 1#16 + BitVec.ofNat 16 i.length

/-- Cartridge, run state, policy and coming hook calls are unchanged. That the last two are fields of State is the model's
choice (log entries 5 and 7). -/
def SameSession (s t : State) : Prop :=
  t.bus.cart = s.bus.cart ∧ t.run = s.run ∧ t.policy = s.policy ∧ t.hooks = s.hooks

/-- Every address reads as before. -/
def SameMemory (s t : State) : Prop := ∀ a, t.bus.peek a = s.bus.peek a

/-- Every address reads as before, the RAM is the same data, and everything of `SameSession` is unchanged. -/
def SameRest (s t : State) : Prop := SameMemory s t ∧ t.bus.ram = s.bus.ram ∧ SameSession s t

/-- Every flag outside a list is unchanged. -/
def OnlyFlags (fs : List Flag) (c d : Cpu) : Prop := ∀ f, f ∉ fs → d.flag f = c.flag f

/-- Z says that a byte is zero, N is its bit 7. -/
def ZNOf (v : Byte) (c : Cpu) : Prop := c.flag .z = decide (v = 0x00#8) ∧ c.flag .n = v.getLsbD 7

/-- The byte `v` was stored at `a`: every address that reaches the same RAM byte reads as `v`, every other address
reads as before. Where `a` is no RAM address, nothing changed. -/
def StoredAt (a : Word) (v : Byte) (s t : State) : Prop :=
  ∀ a', t.bus.peek a' = if sameRamByte a a' then v else s.bus.peek a'

/-- The state entered Faulted with this record; RAM, cartridge, policy and hook calls are as in `s`
(spec/60_exceptions.md R400, R403). Nothing is said of the registers. That the policy and the hook calls are fields of
State is the model's choice (log entries 5 and 7). -/
def FaultedFrom (f : Fault) (site : Site) (s t : State) : Prop :=
  t.run = .faulted f site ∧ t.bus = s.bus ∧ t.policy = s.policy ∧ t.hooks = s.hooks

/-- The mnemonics of the eight unstable opcodes (spec/46_unofficial.md R353). -/
def unstableMnems : List Mnem := [.xaa, .lxa, .ahx, .tas, .shy, .shx, .las]

/-- The mnemonics that store without reading their target (R173 to R175, R337). -/
def storeMnems : List Mnem := [.sta, .stx, .sty, .sax]

/-! ## The invariant -/

/-- The run state is not Faulted. -/
def Run.live (r : Run) : Bool :=
  match r with
  | .faulted _ _ => false
  | .running | .halted => true

/-- Every memory is in its canonical form and inside its size. -/
def Bus.wf (b : Bus) : Bool :=
  b.ram.wf 0x800 && b.cart.prg.wf b.cart.prgLength && b.cart.chr.wf (b.cart.chrBanks * 0x2000)

/-- The invariant of the machine: the memories keep their canonical form, and while the session is not Faulted, U = 1 in
the live P (spec/10_state.md R36). B is no part of it: a host may preset B = 1 (spec/70_reset_and_hazards.md R470). -/
def State.Inv (s : State) : Prop := s.bus.wf = true ∧ (s.run.live = true → s.cpu.flag .u = true)

end Sys2Proof.Machine
end

