-- ==== Sys2Proof/Certificates/Slice0/Obligations.lean ====
section
/-! DEFINITION. The statements for the provers. `s` is always a state in which `exec` runs: PC = a0 + 1, where a0 is
the opcode's address (spec/40_execution.md R131). "Frame" is what a statement says stays unchanged. Where a store is
stated, the premise that the RAM is in canonical form is part of `State.Inv`, which every step keeps. -/

open Sys2Proof Sys2Proof.Machine

/-! ## Decoding and encoding (spec/30_encoding.md) -/

/-- R100, R101, R104: decoding the bytes of any instruction, with any bytes after them, gives the instruction and those
bytes, at every value of its operand. -/
def Obligations.DecodeOfEncode : Prop :=
  ∀ (i : Instr) (rest : List Byte), decode (encode i ++ rest) = .ok (i, rest)

/-- R100, R101, R104: what decodes is the encoding of the instruction it decodes to: no byte is dropped or read as
another. -/
def Obligations.EncodeOfDecode : Prop :=
  ∀ (bs rest : List Byte) (i : Instr), decode bs = .ok (i, rest) → encode i ++ rest = bs ∧ i.wf = true

/-- R100, R104: the decoder is total. It rejects an empty list, and an opcode with fewer bytes after it than its row's
length asks for, and nothing else. -/
def Obligations.DecodeRejectsExactlyShortInput : Prop :=
  (∀ bs, decode bs = .error .noOpcode ↔ bs = []) ∧
  (∀ op op' rest, decode (op :: rest) = .error (.missingOperand op') ↔
    op' = op ∧ rest.length + 1 < (rowOf op).length) ∧
  (∀ op rest, (rowOf op).length ≤ rest.length + 1 → ∃ i, i.opcode = op ∧ i.length = (rowOf op).length ∧
    decode (op :: rest) = .ok (i, rest.drop (i.length - 1)))

/-- R105, R110, and the encodings that the instruction rules give: some words written out by hand, one family each. -/
def Obligations.WordsDecodeAsTheSpecSays : Prop :=
  decode [0x00] = .ok (.brk, []) ∧
  decode [0xA9, 0x05] = .ok (.ldaImm 0x05, []) ∧
  decode [0xA5, 0x10] = .ok (.ldaZp 0x10, []) ∧
  decode [0xAA] = .ok (.tax, []) ∧
  decode [0xE8] = .ok (.inx, []) ∧
  decode [0xAD, 0x35, 0x02] = .ok (.ldaAbs 0x0235, []) ∧
  decode [0x91, 0x20] = .ok (.staIndY 0x20, []) ∧
  decode [0x69, 0x01] = .ok (.adcImm 0x01, []) ∧
  decode [0x0A] = .ok (.aslAcc, []) ∧
  decode [0x10, 0x02] = .ok (.bpl 0x02, []) ∧
  decode [0x4C, 0x20, 0x06] = .ok (.jmpAbs 0x0620, []) ∧
  decode [0x6C, 0xFF, 0x02] = .ok (.jmpInd 0x02FF, []) ∧
  decode [0x48] = .ok (.pha, []) ∧
  decode [0xF8] = .ok (.sed, []) ∧
  decode [0x0C, 0x00, 0x40] = .ok (.nopAbs0C 0x4000, []) ∧
  decode [0xCB, 0x01] = .ok (.axsImm 0x01, []) ∧
  decode [0x02] = .ok (.jam02, [])

/-! ## The Bus (spec/20_memory.md) -/

/-- R63: the Bus byte read, region by region. It changes nothing but the event list. -/
def Obligations.BusRead : Prop :=
  ∀ (a : Word) (s : State),
    (a.toNat ≤ 0x1FFF → memRead a s = .ok (s.bus.ram.read (a &&& 0x07FF#16).toNat) s) ∧
    (0x2000 ≤ a.toNat → a.toNat ≤ 0x3FFF → memRead a s = .ok 0x00 { s with diag := s.diag ++ [.ppuStubRead a] }) ∧
    (0x4000 ≤ a.toNat → a.toNat ≤ 0x7FFF →
      memRead a s = .ok 0x00 { s with diag := s.diag ++ [.invalidAddressRead a] }) ∧
    (0x8000 ≤ a.toNat → prgIndex s.bus.cart a < s.bus.cart.prgLength →
      memRead a s = .ok (s.bus.cart.prg.read (prgIndex s.bus.cart a)) s) ∧
    (0x8000 ≤ a.toNat → s.bus.cart.prgLength ≤ prgIndex s.bus.cart a →
      memRead a s = .raise (.prgIndexOutOfRange a (prgIndex s.bus.cart a)) s)

/-- R64: the Bus byte write, region by region. A write into the PRG window does not happen, the instruction that asked
for it ends in Faulted, and there the run loop stops. -/
def Obligations.BusWrite : Prop :=
  ∀ (a : Word) (v : Byte) (s : State),
    (a.toNat ≤ 0x1FFF → memWrite a v s =
      .ok () { s with bus := { s.bus with ram := s.bus.ram.write (a &&& 0x07FF#16).toNat v } }) ∧
    (0x2000 ≤ a.toNat → a.toNat ≤ 0x3FFF →
      memWrite a v s = .ok () { s with diag := s.diag ++ [.ppuStubWrite a v] }) ∧
    (0x4000 ≤ a.toNat → a.toNat ≤ 0x7FFF →
      memWrite a v s = .ok () { s with diag := s.diag ++ [.invalidAddressWrite a v] }) ∧
    (0x8000 ≤ a.toNat → memWrite a v s = .raise (.illegalWrite a v) s ∧
      ∀ (i : Instr) (s0 : State) (k : Unit → State → Res Flow), ∃ t, finish i s0 ((memWrite a v s).bind k) = .next t ∧
        FaultedFrom (.illegalWrite a v) (.opcodeAt s0.opcodeAddr) s t ∧ ∀ hook n, runLoop hook n t = some t)

/-- R62: two addresses of the RAM window reach the same byte exactly when they agree under 0x07FF; the zero page and
the stack page have their mirrors. -/
def Obligations.RamIsMirrored : Prop :=
  (∀ (a a' : Word) (v : Byte) (s : State), s.bus.ram.wf 0x800 = true → a.toNat ≤ 0x1FFF → a'.toNat ≤ 0x1FFF →
    ∃ t, memWrite a v s = .ok () t ∧
      t.bus.peek a' = if a &&& 0x07FF#16 = a' &&& 0x07FF#16 then v else s.bus.peek a') ∧
  (∀ (z : Byte) (k : Word) (b : Bus), k ∈ [0x0800#16, 0x1000#16, 0x1800#16] →
    b.peek (zext16 z + k) = b.peek (zext16 z) ∧
    b.peek (0x0100#16 + zext16 z + k) = b.peek (0x0100#16 + zext16 z))

/-- R65, with decisions D13, D15 and D38 of the spec: the PRG index for one bank, for two or more, and for none. -/
def Obligations.PrgWindowMapsTheImage : Prop :=
  ∀ (a : Word) (s : State), 0x8000 ≤ a.toNat →
    (s.bus.cart.prgBanks = 1 → memRead a s = .ok (s.bus.cart.prg.read (a.toNat % 0x4000)) s) ∧
    (2 ≤ s.bus.cart.prgBanks → memRead a s = .ok (s.bus.cart.prg.read (a.toNat - 0x8000)) s) ∧
    (s.bus.cart.prgBanks = 0 → memRead a s = .raise (.prgIndexOutOfRange a (a.toNat - 0x8000)) s)

/-- R66, with decision D12: a 16-bit access is two byte accesses, the low byte first, the high byte at the next address
modulo 65536. -/
def Obligations.WordAccessIsTwoByteAccesses : Prop :=
  ∀ (a v : Word) (s : State),
    (s.bus.readableAll [a, a + 1#16] = true →
      memRead16 a s = .ok (wordOf (s.bus.peek (a + 1#16)) (s.bus.peek a))
        { s with diag := s.diag ++ readEventsAll [a, a + 1#16] }) ∧
    (s.bus.ram.wf 0x800 = true → writable a = true → writable (a + 1#16) = true →
      ∃ t, memWrite16 a v s = .ok () t ∧ t.diag = s.diag ++ writeEvents a (lowByte v) ++
          writeEvents (a + 1#16) (highByte v) ∧
        ∀ a', t.bus.peek a' =
          if sameRamByte (a + 1#16) a' then highByte v else if sameRamByte a a' then lowByte v else s.bus.peek a')

/-! ## Stack primitives (spec/40_execution.md) -/

/-- R67, R150 to R154, with decision D1: a push stores at 0x0100 + SP and decrements SP; a pop increments SP and reads
there; neither faults nor appends an event. After Push16 the low byte is at 0x0100 + u8(SP + 1) and the high byte above
it, and Pop16 gives the word back and restores SP, for every SP. -/
def Obligations.StackPrimitives : Prop :=
  ∀ (s : State), s.bus.ram.wf 0x800 = true →
    (∀ v : Byte, ∃ t, push v s = .ok () t ∧ t.cpu = { s.cpu with sp := s.cpu.sp - 1#8 } ∧ t.diag = s.diag ∧
      SameSession s t ∧ StoredAt (0x0100#16 + zext16 s.cpu.sp) v s t) ∧
    pop s = .ok (s.bus.peek (0x0100#16 + zext16 (s.cpu.sp + 1#8)))
      { s with cpu := { s.cpu with sp := s.cpu.sp + 1#8 } } ∧
    (∀ v : Word, ∃ t, push16 v s = .ok () t ∧ t.cpu.sp = s.cpu.sp - 2#8 ∧
      t.bus.peek (0x0100#16 + zext16 (t.cpu.sp + 1#8)) = lowByte v ∧
      t.bus.peek (0x0100#16 + zext16 (t.cpu.sp + 2#8)) = highByte v ∧
      pop16 t = .ok v { t with cpu := s.cpu })

/-! ## Flag and ALU primitives (spec/40_execution.md) -/

/-- R155: SetZN writes Z and N from the byte, and no other flag or register. -/
def Obligations.SetZNRule : Prop :=
  ∀ (v : Byte) (c : Cpu), (c.setZN v).flag .z = decide (v = 0x00#8) ∧ (c.setZN v).flag .n = v.getLsbD 7 ∧
    OnlyFlags [.z, .n] c (c.setZN v) ∧ { c.setZN v with p := c.p } = c

/-- R156: AddToA. The sum has 9 bits; C, V, Z, N and A follow from it; P.D is not read; nothing else is written. -/
def Obligations.AddToARule : Prop :=
  ∀ (m : Byte) (c : Cpu),
    let sum := c.a.toNat + m.toNat + (if c.flag .c then 1 else 0)
    let r := BitVec.ofNat 8 sum
    let d := c.addToA m
    sum ≤ 0x1FF ∧ d.a = r ∧ d.flag .c = decide (0xFF < sum) ∧
    d.flag .v = decide ((m ^^^ r) &&& (r ^^^ c.a) &&& 0x80#8 ≠ 0x00#8) ∧ ZNOf r d ∧
    OnlyFlags [.c, .v, .z, .n] c d ∧ d.x = c.x ∧ d.y = c.y ∧ d.sp = c.sp ∧ d.pc = c.pc ∧
    ∀ v : Bool, (c.setFlag .d v).addToA m = d.setFlag .d v

/-- R157: Compare. C says the register is at least the operand, unsigned; Z and N come from the difference; V and the
registers stay. -/
def Obligations.CompareRule : Prop :=
  ∀ (reg m : Byte) (c : Cpu),
    (c.compare reg m).flag .c = decide (m.toNat ≤ reg.toNat) ∧ ZNOf (reg - m) (c.compare reg m) ∧
    OnlyFlags [.c, .z, .n] c (c.compare reg m) ∧ { c.compare reg m with p := c.p } = c

/-- R158: the four shift primitives, bit by bit, with the bit shifted off in C and the earlier C rotated in. -/
def Obligations.ShiftRules : Prop :=
  ∀ (b : Byte) (c : Cpu),
    (shiftL b c).2 = c.setFlag .c (b.getLsbD 7) ∧ (shiftR b c).2 = c.setFlag .c (b.getLsbD 0) ∧
    (rotL b c).2 = c.setFlag .c (b.getLsbD 7) ∧ (rotR b c).2 = c.setFlag .c (b.getLsbD 0) ∧
    ∀ k, k < 8 →
      (shiftL b c).1.getLsbD k = (if k = 0 then false else b.getLsbD (k - 1)) ∧
      (shiftR b c).1.getLsbD k = (if k = 7 then false else b.getLsbD (k + 1)) ∧
      (rotL b c).1.getLsbD k = (if k = 0 then c.flag .c else b.getLsbD (k - 1)) ∧
      (rotR b c).1.getLsbD k = (if k = 7 then c.flag .c else b.getLsbD (k + 1))

/-- R200, R201: as signed and unsigned arithmetic, the adder adds and, on the complemented operand, subtracts with
borrow. V is set exactly when A and m have one sign bit and the result the other. -/
def Obligations.AdderIsArithmetic : Prop :=
  ∀ (m : Byte) (c : Cpu),
    let carry : Int := if c.flag .c then 1 else 0
    ((c.addToA m).flag .v =
      decide (c.a.getLsbD 7 = m.getLsbD 7 ∧ (c.addToA m).a.getLsbD 7 ≠ c.a.getLsbD 7)) ∧
    ((c.addToA m).flag .v = decide (c.a.toInt + m.toInt + carry < -128 ∨ 127 < c.a.toInt + m.toInt + carry)) ∧
    ((c.addToA (~~~m)).a = BitVec.ofInt 8 (c.a.toNat - m.toNat - (1 - carry))) ∧
    ((c.addToA (~~~m)).flag .c = decide (0 ≤ (c.a.toNat : Int) - m.toNat - (1 - carry))) ∧
    ~~~m = 0x00#8 - m - 0x01#8

/-! ## The resolver (spec/40_execution.md) -/

/-- R141: both bytes of a zero-page pointer are taken inside page 0. -/
def Obligations.ZpRead16StaysInPageZero : Prop :=
  ∀ (p : Byte) (s : State),
    zpRead16 p s = .ok (wordOf (s.bus.peek (zext16 (p + 1#8))) (s.bus.peek (zext16 p))) s ∧
    (zext16 p).toNat < 0x100 ∧ (zext16 (p + 1#8)).toNat < 0x100

/-- R140, R142 to R148: EA of each mode whose Bus reads raise no fault, for the operand bytes the instruction holds.
Only events are appended. -/
def Obligations.EffectiveAddresses : Prop :=
  ∀ (op b : Byte) (w : Word) (s : State),
    resolve op (.imm b) s = .ok s.cpu.pc s ∧
    (s.bus.readable s.cpu.pc = true →
      let t := { s with diag := s.diag ++ readEvents s.cpu.pc }
      resolve op (.zp b) s = .ok (zext16 b) t ∧
      resolve op (.zpX b) s = .ok (zext16 (b + s.cpu.x)) t ∧
      resolve op (.zpY b) s = .ok (zext16 (b + s.cpu.y)) t ∧
      resolve op (.indX b) s = .ok (s.bus.peekZp16 (b + s.cpu.x)) t ∧
      resolve op (.indY b) s = .ok (s.bus.peekZp16 b + zext16 s.cpu.y) t) ∧
    (s.bus.readableAll [s.cpu.pc, s.cpu.pc + 1#16] = true →
      let t := { s with diag := s.diag ++ (readEvents s.cpu.pc ++ readEvents (s.cpu.pc + 1#16)) }
      resolve op (.abs w) s = .ok w t ∧
      resolve op (.absX w) s = .ok (w + zext16 s.cpu.x) t ∧
      resolve op (.absY w) s = .ok (w + zext16 s.cpu.y) t)

/-! ## Loads, stores and transfers (spec/41_load_store_transfer.md) -/

/-- R170 to R172, R336: LDA, LDX, LDY and LAX load their operand in every form, LAX into A and X, and set Z and N from
it. Frame: the other registers and flags, and all memory. -/
def Obligations.Loads : Prop :=
  ∀ (i : Instr) (s : State), s.bus.readableAll (operandReads i.operand s.cpu s.bus) = true →
    i.mnem ∈ [.lda, .ldx, .ldy, .lax] →
    let v := operandValue i.operand s.cpu s.bus
    ∃ t, exec i s = .next t ∧
      t.cpu.a = (if i.mnem = .lda ∨ i.mnem = .lax then v else s.cpu.a) ∧
      t.cpu.x = (if i.mnem = .ldx ∨ i.mnem = .lax then v else s.cpu.x) ∧
      t.cpu.y = (if i.mnem = .ldy then v else s.cpu.y) ∧ t.cpu.sp = s.cpu.sp ∧
      ZNOf v t.cpu ∧ OnlyFlags [.z, .n] s.cpu t.cpu ∧ t.cpu.pc = nextPc i s.cpu ∧
      t.diag = s.diag ++ readEventsAll (operandReads i.operand s.cpu s.bus) ∧ SameRest s t

/-- R173 to R175, R337: STA, STX, STY and SAX store A, X, Y and A & X at their effective address, in every form, where
it is writable. Frame: every register and flag, and every byte that does not share the RAM byte stored to. -/
def Obligations.Stores : Prop :=
  ∀ (i : Instr) (s : State), s.bus.ram.wf 0x800 = true → i.mnem ∈ storeMnems →
    s.bus.readableAll (eaReads i.operand s.cpu) = true → writable (peekEa i.operand s.cpu s.bus) = true →
    let v := if i.mnem = .sta then s.cpu.a else if i.mnem = .stx then s.cpu.x
      else if i.mnem = .sty then s.cpu.y else s.cpu.a &&& s.cpu.x
    ∃ t, exec i s = .next t ∧ StoredAt (peekEa i.operand s.cpu s.bus) v s t ∧
      t.cpu = { s.cpu with pc := nextPc i s.cpu } ∧
      t.diag = s.diag ++ readEventsAll (eaReads i.operand s.cpu) ++
        writeEvents (peekEa i.operand s.cpu s.bus) v ∧
      SameSession s t

/-- R176 to R181: the six register transfers. All but TXS set Z and N from the value; TXS writes no flag. Frame: every
other register and flag, and all memory. -/
def Obligations.Transfers : Prop :=
  ∀ (i : Instr) (s : State), i.mnem ∈ [.tax, .tay, .txa, .tya, .tsx, .txs] →
    let v := if i.mnem = .tax ∨ i.mnem = .tay then s.cpu.a
      else if i.mnem = .txa ∨ i.mnem = .txs then s.cpu.x
      else if i.mnem = .tya then s.cpu.y else s.cpu.sp
    ∃ t, exec i s = .next t ∧
      t.cpu.a = (if i.mnem = .txa ∨ i.mnem = .tya then v else s.cpu.a) ∧
      t.cpu.x = (if i.mnem = .tax ∨ i.mnem = .tsx then v else s.cpu.x) ∧
      t.cpu.y = (if i.mnem = .tay then v else s.cpu.y) ∧
      t.cpu.sp = (if i.mnem = .txs then v else s.cpu.sp) ∧
      (i.mnem ≠ .txs → ZNOf v t.cpu ∧ OnlyFlags [.z, .n] s.cpu t.cpu) ∧ (i.mnem = .txs → t.cpu.p = s.cpu.p) ∧
      t.cpu.pc = nextPc i s.cpu ∧ t.diag = s.diag ∧ SameRest s t

/-! ## Arithmetic and logic (spec/42_arith_logic.md) -/

/-- R200, R201, R338: ADC adds its operand with carry, SBC (0xEB too) adds the complement, in every form. Frame: X, Y,
SP, the flags I, D, B, U, and all memory. -/
def Obligations.AddAndSubtract : Prop :=
  ∀ (i : Instr) (s : State), s.bus.readableAll (operandReads i.operand s.cpu s.bus) = true →
    i.mnem ∈ [.adc, .sbc] →
    let v := operandValue i.operand s.cpu s.bus
    let m := if i.mnem = .adc then v else ~~~v
    let sum := s.cpu.a.toNat + m.toNat + (if s.cpu.flag .c then 1 else 0)
    let r := BitVec.ofNat 8 sum
    ∃ t, exec i s = .next t ∧ t.cpu.a = r ∧ t.cpu.flag .c = decide (0xFF < sum) ∧
      t.cpu.flag .v = decide ((m ^^^ r) &&& (r ^^^ s.cpu.a) &&& 0x80#8 ≠ 0x00#8) ∧ ZNOf r t.cpu ∧
      OnlyFlags [.c, .v, .z, .n] s.cpu t.cpu ∧ t.cpu.x = s.cpu.x ∧ t.cpu.y = s.cpu.y ∧ t.cpu.sp = s.cpu.sp ∧
      t.cpu.pc = nextPc i s.cpu ∧
      t.diag = s.diag ++ readEventsAll (operandReads i.operand s.cpu s.bus) ∧ SameRest s t

/-- R202 to R204: AND, ORA and EOR. Frame: X, Y, SP, every flag but Z and N, and all memory. -/
def Obligations.BitwiseLogic : Prop :=
  ∀ (i : Instr) (s : State), s.bus.readableAll (operandReads i.operand s.cpu s.bus) = true →
    i.mnem ∈ [.and, .ora, .eor] →
    let v := operandValue i.operand s.cpu s.bus
    let r := if i.mnem = .and then s.cpu.a &&& v else if i.mnem = .ora then s.cpu.a ||| v else s.cpu.a ^^^ v
    ∃ t, exec i s = .next t ∧ t.cpu.a = r ∧ ZNOf r t.cpu ∧ OnlyFlags [.z, .n] s.cpu t.cpu ∧
      t.cpu.x = s.cpu.x ∧ t.cpu.y = s.cpu.y ∧ t.cpu.sp = s.cpu.sp ∧ t.cpu.pc = nextPc i s.cpu ∧
      t.diag = s.diag ++ readEventsAll (operandReads i.operand s.cpu s.bus) ∧ SameRest s t

/-- R205: BIT sets Z from A & m, V and N from m. Frame: every register, every other flag, and all memory. -/
def Obligations.BitTest : Prop :=
  ∀ (i : Instr) (s : State), s.bus.readableAll (operandReads i.operand s.cpu s.bus) = true → i.mnem = .bit →
    let v := operandValue i.operand s.cpu s.bus
    ∃ t, exec i s = .next t ∧ t.cpu.flag .z = decide (s.cpu.a &&& v = 0x00#8) ∧ t.cpu.flag .v = v.getLsbD 6 ∧
      t.cpu.flag .n = v.getLsbD 7 ∧ OnlyFlags [.z, .v, .n] s.cpu t.cpu ∧
      { t.cpu with p := s.cpu.p } = { s.cpu with pc := nextPc i s.cpu } ∧
      t.diag = s.diag ++ readEventsAll (operandReads i.operand s.cpu s.bus) ∧ SameRest s t

/-- R206 to R208: CMP, CPX and CPY. Frame: every register, every flag but C, Z and N, and all memory. -/
def Obligations.Compares : Prop :=
  ∀ (i : Instr) (s : State), s.bus.readableAll (operandReads i.operand s.cpu s.bus) = true →
    i.mnem ∈ [.cmp, .cpx, .cpy] →
    let v := operandValue i.operand s.cpu s.bus
    let reg := if i.mnem = .cmp then s.cpu.a else if i.mnem = .cpx then s.cpu.x else s.cpu.y
    ∃ t, exec i s = .next t ∧ t.cpu.flag .c = decide (v.toNat ≤ reg.toNat) ∧ ZNOf (reg - v) t.cpu ∧
      OnlyFlags [.c, .z, .n] s.cpu t.cpu ∧
      { t.cpu with p := s.cpu.p } = { s.cpu with pc := nextPc i s.cpu } ∧
      t.diag = s.diag ++ readEventsAll (operandReads i.operand s.cpu s.bus) ∧ SameRest s t

/-- R209, R210: INC and DEC read, then write, the byte at their effective address, and set Z and N. Frame: every
register, every other flag, and every byte that does not share the RAM byte stored to. -/
def Obligations.IncrementMemory : Prop :=
  ∀ (i : Instr) (s : State), s.bus.ram.wf 0x800 = true → i.mnem ∈ [.inc, .dec] →
    s.bus.readableAll (operandReads i.operand s.cpu s.bus) = true → writable (peekEa i.operand s.cpu s.bus) = true →
    let ea := peekEa i.operand s.cpu s.bus
    let r := if i.mnem = .inc then s.bus.peek ea + 1#8 else s.bus.peek ea - 1#8
    ∃ t, exec i s = .next t ∧ StoredAt ea r s t ∧ ZNOf r t.cpu ∧ OnlyFlags [.z, .n] s.cpu t.cpu ∧
      { t.cpu with p := s.cpu.p } = { s.cpu with pc := nextPc i s.cpu } ∧
      t.diag = s.diag ++ readEventsAll (operandReads i.operand s.cpu s.bus) ++ writeEvents ea r ∧ SameSession s t

/-- R211 to R214: INX, INY, DEX and DEY, modulo 256. Frame: the other registers, every flag but Z and N, and all
memory. -/
def Obligations.IncrementRegisters : Prop :=
  ∀ (i : Instr) (s : State), i.mnem ∈ [.inx, .iny, .dex, .dey] →
    let r := if i.mnem = .inx then s.cpu.x + 1#8 else if i.mnem = .iny then s.cpu.y + 1#8
      else if i.mnem = .dex then s.cpu.x - 1#8 else s.cpu.y - 1#8
    ∃ t, exec i s = .next t ∧ t.cpu.x = (if i.mnem = .inx ∨ i.mnem = .dex then r else s.cpu.x) ∧
      t.cpu.y = (if i.mnem = .iny ∨ i.mnem = .dey then r else s.cpu.y) ∧ t.cpu.a = s.cpu.a ∧ t.cpu.sp = s.cpu.sp ∧
      ZNOf r t.cpu ∧ OnlyFlags [.z, .n] s.cpu t.cpu ∧ t.cpu.pc = nextPc i s.cpu ∧ t.diag = s.diag ∧ SameRest s t

/-! ## Shifts and rotates (spec/43_shift_rotate.md) -/

/-- R250 to R253, the accumulator forms: the result, C and the carry rotated in. Frame: X, Y, SP, every flag but C, Z
and N, and all memory. -/
def Obligations.ShiftAccumulator : Prop :=
  ∀ (i : Instr) (s : State), i ∈ [Instr.aslAcc, .lsrAcc, .rolAcc, .rorAcc] →
    let b := s.cpu.a
    let carry : Byte := if s.cpu.flag .c then 0x01#8 else 0x00#8
    let r := if i = .aslAcc then b <<< 1 else if i = .lsrAcc then b >>> 1
      else if i = .rolAcc then (b <<< 1) ||| carry else (b >>> 1) ||| (carry <<< 7)
    ∃ t, exec i s = .next t ∧ t.cpu.a = r ∧
      t.cpu.flag .c = (if i = .aslAcc ∨ i = .rolAcc then b.getLsbD 7 else b.getLsbD 0) ∧ ZNOf r t.cpu ∧
      OnlyFlags [.c, .z, .n] s.cpu t.cpu ∧ t.cpu.x = s.cpu.x ∧ t.cpu.y = s.cpu.y ∧ t.cpu.sp = s.cpu.sp ∧
      t.cpu.pc = nextPc i s.cpu ∧ t.diag = s.diag ∧ SameRest s t

/-- R250 to R253, the memory forms. Frame: every register, every flag but C, Z and N, and every byte that does not
share the RAM byte stored to. -/
def Obligations.ShiftMemory : Prop :=
  ∀ (i : Instr) (s : State), s.bus.ram.wf 0x800 = true → i.mnem ∈ [.asl, .lsr, .rol, .ror] → i.operand ≠ .acc →
    s.bus.readableAll (operandReads i.operand s.cpu s.bus) = true → writable (peekEa i.operand s.cpu s.bus) = true →
    let ea := peekEa i.operand s.cpu s.bus
    let b := s.bus.peek ea
    let carry : Byte := if s.cpu.flag .c then 0x01#8 else 0x00#8
    let r := if i.mnem = .asl then b <<< 1 else if i.mnem = .lsr then b >>> 1
      else if i.mnem = .rol then (b <<< 1) ||| carry else (b >>> 1) ||| (carry <<< 7)
    ∃ t, exec i s = .next t ∧ StoredAt ea r s t ∧
      t.cpu.flag .c = (if i.mnem = .asl ∨ i.mnem = .rol then b.getLsbD 7 else b.getLsbD 0) ∧ ZNOf r t.cpu ∧
      OnlyFlags [.c, .z, .n] s.cpu t.cpu ∧
      { t.cpu with p := s.cpu.p } = { s.cpu with pc := nextPc i s.cpu } ∧
      t.diag = s.diag ++ readEventsAll (operandReads i.operand s.cpu s.bus) ++ writeEvents ea r ∧ SameSession s t

/-- R173 to R175, R209, R210, R250 to R253, R330 to R335, R337, R403: a store whose target is in the PRG window, and a
read-modify-write instruction whose target is there, enter Faulted with IllegalWrite of the byte they would have
written, at the step's opcode address. Their reads happened; nothing is stored. -/
def Obligations.WritesToRomFault : Prop :=
  ∀ (i : Instr) (s : State), 0x8000 ≤ (peekEa i.operand s.cpu s.bus).toNat →
    let ea := peekEa i.operand s.cpu s.bus
    let b := s.bus.peek ea
    let carry : Byte := if s.cpu.flag .c then 0x01#8 else 0x00#8
    let v := if i.mnem = .sta then s.cpu.a else if i.mnem = .stx then s.cpu.x
      else if i.mnem = .sty then s.cpu.y else s.cpu.a &&& s.cpu.x
    let r := if i.mnem ∈ [.inc, .isb] then b + 1#8 else if i.mnem ∈ [.dec, .dcp] then b - 1#8
      else if i.mnem ∈ [.asl, .slo] then b <<< 1 else if i.mnem ∈ [.lsr, .sre] then b >>> 1
      else if i.mnem ∈ [.rol, .rla] then (b <<< 1) ||| carry else (b >>> 1) ||| (carry <<< 7)
    (i.mnem ∈ storeMnems → s.bus.readableAll (eaReads i.operand s.cpu) = true →
      ∃ t, exec i s = .next t ∧ t.diag = s.diag ++ readEventsAll (eaReads i.operand s.cpu) ∧
        FaultedFrom (.illegalWrite ea v) (.opcodeAt (s.cpu.pc - 1#16)) s t) ∧
    (i.mnem ∈ [.inc, .dec, .asl, .lsr, .rol, .ror, .slo, .rla, .sre, .rra, .dcp, .isb] → i.operand ≠ .acc →
      s.bus.readableAll (operandReads i.operand s.cpu s.bus) = true →
      ∃ t, exec i s = .next t ∧ t.diag = s.diag ++ readEventsAll (operandReads i.operand s.cpu s.bus) ∧
        FaultedFrom (.illegalWrite ea r) (.opcodeAt (s.cpu.pc - 1#16)) s t)

/-! ## Control flow (spec/44_control.md) -/

/-- R270 to R278: each branch tests the one flag and value it names. Taken, it goes to the next instruction's address
plus the signed offset, or enters Faulted where its offset byte cannot be read; not taken, it reads nothing. Frame:
every register and flag, and all memory. -/
def Obligations.Branches : Prop :=
  ∀ (m : Mnem) (f : Flag) (want : Bool) (i : Instr) (s : State),
    (m, f, want) ∈ [(.bpl, .n, false), (.bmi, .n, true), (.bvc, .v, false), (.bvs, .v, true), (.bcc, .c, false),
      (.bcs, .c, true), (.bne, .z, false), (.beq, .z, true)] → i.mnem = m →
    (s.cpu.flag f ≠ want → ∃ t, exec i s = .next t ∧
      t.cpu = { s.cpu with pc := nextPc i s.cpu } ∧ t.diag = s.diag ∧ SameRest s t) ∧
    (s.cpu.flag f = want → s.bus.readable s.cpu.pc = true → ∃ (off : Byte) (t : State), i.operand = .rel off ∧
      exec i s = .next t ∧
      t.cpu = { s.cpu with pc := nextPc i s.cpu + BitVec.ofInt 16 off.toInt } ∧
      t.diag = s.diag ++ readEvents s.cpu.pc ∧ SameRest s t) ∧
    (s.cpu.flag f = want → s.bus.readable s.cpu.pc = false → ∃ t, exec i s = .next t ∧ t.diag = s.diag ∧
      FaultedFrom (.prgIndexOutOfRange s.cpu.pc (prgIndex s.bus.cart s.cpu.pc)) (.opcodeAt (s.cpu.pc - 1#16)) s t)

/-- R280, R281: JMP goes to its operand, or to the word at its pointer, whose high byte is read in the pointer's own
page when the pointer ends in 0xFF. At the first address it cannot read it enters Faulted. Frame: every register but
PC, every flag, and all memory. -/
def Obligations.Jumps : Prop :=
  ∀ (w : Word) (s : State),
    let high := if lowByte w = 0xFF#8 then w &&& 0xFF00#16 else w + 1#16
    let operand := [s.cpu.pc, s.cpu.pc + 1#16]
    (s.bus.readableAll operand = true →
      ∃ t, exec (.jmpAbs w) s = .next t ∧ t.cpu = { s.cpu with pc := w } ∧
        t.diag = s.diag ++ readEventsAll operand ∧ SameRest s t) ∧
    (s.bus.readableAll (operand ++ [w, high]) = true →
      ∃ t, exec (.jmpInd w) s = .next t ∧
        t.cpu = { s.cpu with pc := wordOf (s.bus.peek high) (s.bus.peek w) } ∧
        t.diag = s.diag ++ readEventsAll (operand ++ [w, high]) ∧ SameRest s t) ∧
    (∀ (i : Instr) (l l' : List Word) (a : Word),
      (i = .jmpAbs w ∧ operand = l ++ a :: l') ∨ (i = .jmpInd w ∧ operand ++ [w, high] = l ++ a :: l') →
      s.bus.readableAll l = true → s.bus.readable a = false →
      ∃ t, exec i s = .next t ∧ t.diag = s.diag ++ readEventsAll l ∧
        FaultedFrom (.prgIndexOutOfRange a (prgIndex s.bus.cart a)) (.opcodeAt (s.cpu.pc - 1#16)) s t)

/-- R282, with decision D21: JSR pushes the address of its last byte, high byte first, then goes to the word its operand
bytes hold after the pushes. Where no push hits those bytes and they hold the operand, that word is the operand. Where
they cannot be read it enters Faulted, with the pushes done. Frame: A, X, Y, P, and every byte but the two stack
bytes. -/
def Obligations.JumpToSubroutine : Prop :=
  ∀ (addr : Word) (s : State), s.bus.ram.wf 0x800 = true →
    let high := 0x0100#16 + zext16 s.cpu.sp
    let low := 0x0100#16 + zext16 (s.cpu.sp - 1#8)
    ∃ t, exec (.jsr addr) s = .next t ∧
      (∀ a, t.bus.peek a = if sameRamByte low a then lowByte (s.cpu.pc + 1#16)
        else if sameRamByte high a then highByte (s.cpu.pc + 1#16) else s.bus.peek a) ∧
      (s.bus.readableAll [s.cpu.pc, s.cpu.pc + 1#16] = true →
        t.cpu = { s.cpu with sp := s.cpu.sp - 2#8, pc := t.bus.peek16 s.cpu.pc } ∧
        t.diag = s.diag ++ readEventsAll [s.cpu.pc, s.cpu.pc + 1#16] ∧ SameSession s t ∧
        (s.bus.peek16 s.cpu.pc = addr →
          (∀ a ∈ [s.cpu.pc, s.cpu.pc + 1#16], sameRamByte low a = false ∧ sameRamByte high a = false) →
          t.cpu.pc = addr)) ∧
      (s.bus.readableAll [s.cpu.pc, s.cpu.pc + 1#16] = false →
        ∃ a ∈ [s.cpu.pc, s.cpu.pc + 1#16], s.bus.readable a = false ∧
          t.run = .faulted (.prgIndexOutOfRange a (prgIndex s.bus.cart a)) (.opcodeAt (s.cpu.pc - 1#16)) ∧
          t.bus.cart = s.bus.cart ∧ t.policy = s.policy ∧ t.hooks = s.hooks)

/-- R283: RTS pops a word, low byte first, and goes to that word plus 1. Frame: A, X, Y, P, and all memory. -/
def Obligations.ReturnFromSubroutine : Prop :=
  ∀ (s : State), ∃ t, exec .rts s = .next t ∧
    t.cpu = { s.cpu with
      sp := s.cpu.sp + 2#8
      pc := wordOf (s.bus.peek (0x0100#16 + zext16 (s.cpu.sp + 2#8)))
        (s.bus.peek (0x0100#16 + zext16 (s.cpu.sp + 1#8))) + 1#16 } ∧
    t.diag = s.diag ∧ SameRest s t

/-- R285, with decision D34: RTI pops the status, with B forced to 0 and U to 1, then the PC, with no + 1. Frame: A, X,
Y, and all memory. -/
def Obligations.ReturnFromInterrupt : Prop :=
  ∀ (s : State), ∃ t, exec .rti s = .next t ∧
    (∀ f, t.cpu.flag f = if f = .b then false else if f = .u then true
      else flagOf (s.bus.peek (0x0100#16 + zext16 (s.cpu.sp + 1#8))) f) ∧
    t.cpu.pc = wordOf (s.bus.peek (0x0100#16 + zext16 (s.cpu.sp + 3#8)))
      (s.bus.peek (0x0100#16 + zext16 (s.cpu.sp + 2#8))) ∧
    t.cpu.sp = s.cpu.sp + 3#8 ∧ t.cpu.a = s.cpu.a ∧ t.cpu.x = s.cpu.x ∧ t.cpu.y = s.cpu.y ∧
    t.diag = s.diag ∧ SameRest s t

/-- R136, R287: BRK, the one byte 0x00, halts. It pushes nothing, reads no vector and writes no flag, register or byte.
So a step that fetches 0x00, from any region, halts with PC at that address plus 1. -/
def Obligations.BreakHalts : Prop :=
  encode .brk = [0x00#8] ∧ ∀ (s : State),
    exec .brk s = .next { s with run := .halted } ∧
    (s.run = .running → s.nextHook = HookCall.noop → s.bus.readable s.cpu.pc = true → s.bus.peek s.cpu.pc = 0x00#8 →
      step s = .next { s with
        run := .halted
        cpu := { s.cpu with pc := s.cpu.pc + 1#16 }
        diag := s.diag ++ readEvents s.cpu.pc
        hooks := s.hooks.tail })

/-! ## Stack, flags and NOP (spec/45_stack_flags_misc.md) -/

/-- R300, R302: PHA pushes A; PHP pushes P with B and U set and leaves P. Frame: A, X, Y, P, and every byte but the
stack byte. -/
def Obligations.PushInstructions : Prop :=
  ∀ (i : Instr) (s : State), s.bus.ram.wf 0x800 = true → i ∈ [Instr.pha, .php] →
    ∃ (v : Byte) (t : State), exec i s = .next t ∧ StoredAt (0x0100#16 + zext16 s.cpu.sp) v s t ∧
      (i = .pha → v = s.cpu.a) ∧
      (i = .php → ∀ f, flagOf v f = if f = .b ∨ f = .u then true else s.cpu.flag f) ∧
      t.cpu = { s.cpu with sp := s.cpu.sp - 1#8, pc := nextPc i s.cpu } ∧ t.diag = s.diag ∧ SameSession s t

/-- R301, R303: PLA pops A and sets Z and N; PLP pops P, with B forced to 0 and U to 1. Frame: X, Y, for PLP also A,
for PLA every other flag, and all memory. -/
def Obligations.PullInstructions : Prop :=
  ∀ (s : State),
    let v := s.bus.peek (0x0100#16 + zext16 (s.cpu.sp + 1#8))
    (∃ t, exec .pla s = .next t ∧ t.cpu.a = v ∧ ZNOf v t.cpu ∧ OnlyFlags [.z, .n] s.cpu t.cpu ∧
      t.cpu.x = s.cpu.x ∧ t.cpu.y = s.cpu.y ∧ t.cpu.sp = s.cpu.sp + 1#8 ∧ t.cpu.pc = nextPc .pla s.cpu ∧
      t.diag = s.diag ∧ SameRest s t) ∧
    (∃ t, exec .plp s = .next t ∧
      (∀ f, t.cpu.flag f = if f = .b then false else if f = .u then true else flagOf v f) ∧
      { t.cpu with p := s.cpu.p } = { s.cpu with sp := s.cpu.sp + 1#8, pc := nextPc .plp s.cpu } ∧
      t.diag = s.diag ∧ SameRest s t)

/-- R284, R301, R303: PHA then PLA leaves A and SP unchanged; PHP then PLP leaves SP and P unchanged, but for B forced to
0 and U to 1; and an RTS in any state that still has the RAM and SP that a JSR left goes to the instruction after the
JSR and restores SP. -/
def Obligations.PullUndoesPush : Prop :=
  ∀ (s t : State), s.bus.ram.wf 0x800 = true →
    (exec .pha s = .next t → ∃ u, exec .pla t = .next u ∧ u.cpu.a = s.cpu.a ∧ u.cpu.sp = s.cpu.sp) ∧
    (exec .php s = .next t → ∃ u, exec .plp t = .next u ∧ u.cpu.sp = s.cpu.sp ∧
      ∀ f, u.cpu.flag f = if f = .b then false else if f = .u then true else s.cpu.flag f) ∧
    (∀ (addr : Word) (u : State), exec (.jsr addr) s = .next t → s.run.live = true → t.run = s.run →
      u.cpu.sp = t.cpu.sp → u.bus.ram = t.bus.ram →
      ∃ v, exec .rts u = .next v ∧ v.cpu.pc = nextPc (.jsr addr) s.cpu ∧ v.cpu.sp = s.cpu.sp)

/-- R310 to R316: each of the seven writes its one flag. Frame: every other flag, every register, and all memory. -/
def Obligations.FlagInstructions : Prop :=
  ∀ (i : Instr) (f : Flag) (v : Bool) (s : State),
    (i, f, v) ∈ [(Instr.clc, Flag.c, false), (.sec, .c, true), (.cli, .i, false), (.sei, .i, true), (.clv, .v, false),
      (.cld, .d, false), (.sed, .d, true)] →
    ∃ t, exec i s = .next t ∧ t.cpu.flag f = v ∧ OnlyFlags [f] s.cpu t.cpu ∧
      { t.cpu with p := s.cpu.p } = { s.cpu with pc := nextPc i s.cpu } ∧ t.diag = s.diag ∧ SameRest s t

/-- R320, R343, R344: every NOP, official or not, advances PC by its length. One with an operand reads it, so it can
append events. Frame: every register and flag, and all memory. -/
def Obligations.NoOperations : Prop :=
  ∀ (i : Instr) (s : State), i.mnem = .nop →
    let reads := if i.operand = .imp then [] else operandReads i.operand s.cpu s.bus
    s.bus.readableAll reads = true →
    ∃ t, exec i s = .next t ∧ t.cpu = { s.cpu with pc := nextPc i s.cpu } ∧ t.diag = s.diag ++ readEventsAll reads ∧
      SameRest s t

/-! ## Unofficial opcodes (spec/46_unofficial.md) -/

/-- R330 to R335: SLO, RLA, SRE, RRA, DCP and ISB store a shifted, rotated or counted byte, and then combine it with A.
Frame: X, Y, SP, for DCP also A, the flags I, D, B, U, and but for RRA and ISB also V, and every byte that does not
share the RAM byte stored to. -/
def Obligations.CombinedModify : Prop :=
  ∀ (i : Instr) (s : State), s.bus.ram.wf 0x800 = true → i.mnem ∈ [.slo, .rla, .sre, .rra, .dcp, .isb] →
    s.bus.readableAll (operandReads i.operand s.cpu s.bus) = true → writable (peekEa i.operand s.cpu s.bus) = true →
    let ea := peekEa i.operand s.cpu s.bus
    let b := s.bus.peek ea
    let carry : Byte := if s.cpu.flag .c then 0x01#8 else 0x00#8
    let r := if i.mnem = .slo then b <<< 1 else if i.mnem = .rla then (b <<< 1) ||| carry
      else if i.mnem = .sre then b >>> 1 else if i.mnem = .rra then (b >>> 1) ||| (carry <<< 7)
      else if i.mnem = .dcp then b - 1#8 else b + 1#8
    let m := if i.mnem = .rra then r else ~~~r
    let sum := s.cpu.a.toNat + m.toNat +
      (if i.mnem = .rra then (if b.getLsbD 0 then 1 else 0) else (if s.cpu.flag .c then 1 else 0))
    let res := if i.mnem = .slo then s.cpu.a ||| r else if i.mnem = .rla then s.cpu.a &&& r
      else if i.mnem = .sre then s.cpu.a ^^^ r else if i.mnem = .dcp then s.cpu.a - r else BitVec.ofNat 8 sum
    ∃ t, exec i s = .next t ∧ StoredAt ea r s t ∧ t.cpu.a = (if i.mnem = .dcp then s.cpu.a else res) ∧
      ZNOf res t.cpu ∧
      t.cpu.flag .c = (if i.mnem = .slo ∨ i.mnem = .rla then b.getLsbD 7 else if i.mnem = .sre then b.getLsbD 0
        else if i.mnem = .dcp then decide (r.toNat ≤ s.cpu.a.toNat) else decide (0xFF < sum)) ∧
      t.cpu.flag .v = (if i.mnem = .rra ∨ i.mnem = .isb
        then decide ((m ^^^ res) &&& (res ^^^ s.cpu.a) &&& 0x80#8 ≠ 0x00#8) else s.cpu.flag .v) ∧
      OnlyFlags [.c, .v, .z, .n] s.cpu t.cpu ∧ t.cpu.x = s.cpu.x ∧ t.cpu.y = s.cpu.y ∧ t.cpu.sp = s.cpu.sp ∧
      t.cpu.pc = nextPc i s.cpu ∧
      t.diag = s.diag ++ readEventsAll (operandReads i.operand s.cpu s.bus) ++ writeEvents ea r ∧ SameSession s t

/-- R339 to R342: ANC, ALR, ARR and AXS on an immediate. Frame: Y, SP, for AXS A and for the others X, the flags I, D,
B, U, and but for ARR also V, and all memory. -/
def Obligations.CombinedImmediate : Prop :=
  ∀ (i : Instr) (s : State), s.bus.readable s.cpu.pc = true → i.mnem ∈ [.anc, .alr, .arr, .axs] →
    ∃ (v : Byte) (t : State), i.operand = .imm v ∧ exec i s = .next t ∧
      let carry : Byte := if s.cpu.flag .c then 0x80#8 else 0x00#8
      let r := if i.mnem = .anc then s.cpu.a &&& v else if i.mnem = .alr then (s.cpu.a &&& v) >>> 1
        else if i.mnem = .arr then ((s.cpu.a &&& v) >>> 1) ||| carry else (s.cpu.a &&& s.cpu.x) - v
      t.cpu.a = (if i.mnem = .axs then s.cpu.a else r) ∧ t.cpu.x = (if i.mnem = .axs then r else s.cpu.x) ∧
      ZNOf r t.cpu ∧
      t.cpu.flag .c = (if i.mnem = .anc then r.getLsbD 7 else if i.mnem = .alr then (s.cpu.a &&& v).getLsbD 0
        else if i.mnem = .arr then r.getLsbD 6 else decide (v.toNat ≤ (s.cpu.a &&& s.cpu.x).toNat)) ∧
      t.cpu.flag .v = (if i.mnem = .arr then (r.getLsbD 6 ^^ r.getLsbD 5) else s.cpu.flag .v) ∧
      OnlyFlags [.c, .v, .z, .n] s.cpu t.cpu ∧ t.cpu.y = s.cpu.y ∧ t.cpu.sp = s.cpu.sp ∧
      t.cpu.pc = nextPc i s.cpu ∧ t.diag = s.diag ++ readEvents s.cpu.pc ∧ SameRest s t

/-- R107, R135, R345, R353: the Unimplemented opcodes are JAM, and under the policy Fault the unstable ones. Each enters
Faulted with UnimplementedOpcode at the step's opcode address, before any operand read: no event, no memory change. -/
def Obligations.UnimplementedOpcodesFault : Prop :=
  ∀ (i : Instr) (s : State),
    (i.implemented s.policy = false ↔ i.mnem = .jam ∨ (i.mnem ∈ unstableMnems ∧ s.policy = .fault)) ∧
    (i.implemented s.policy = false → ∃ t, exec i s = .next t ∧ t.diag = s.diag ∧
      FaultedFrom (.unimplementedOpcode i.opcode (s.cpu.pc - 1#16)) (.opcodeAt (s.cpu.pc - 1#16)) s t)

/-- R346 to R353: under the policy Implemented an unstable opcode completes, whatever UNSTABLE_SEM is (log entry 5), and
stays within the bounds of its rule: XAA writes A, Z, N; LXA A, X, Z, N; AHX, SHY and SHX memory at EA; TAS SP and memory
at EA; LAS A, X, SP, Z, N. One of the four that store, with EA in the PRG window, either does so or enters Faulted with
IllegalWrite there. Frame: Y, every register and flag its rule does not name, and every byte that does not share the
RAM byte at EA. -/
def Obligations.UnstableOpcodesStayInBounds : Prop :=
  ∀ (i : Instr) (s : State), s.bus.ram.wf 0x800 = true → i.mnem ∈ unstableMnems → s.policy = .implemented →
    s.bus.readableAll (operandReads i.operand s.cpu s.bus) = true →
    let ea := peekEa i.operand s.cpu s.bus
    ∃ t, exec i s = .next t ∧
      (((i.mnem ∉ [.xaa, .lxa, .las] → t.cpu.a = s.cpu.a ∧ t.cpu.p = s.cpu.p) ∧
        (i.mnem ∉ [.lxa, .las] → t.cpu.x = s.cpu.x) ∧ (i.mnem ∉ [.tas, .las] → t.cpu.sp = s.cpu.sp) ∧
        t.cpu.y = s.cpu.y ∧ OnlyFlags [.z, .n] s.cpu t.cpu ∧ t.cpu.pc = nextPc i s.cpu ∧
        (∀ a, sameRamByte ea a = false ∨ i.mnem ∈ [.xaa, .lxa, .las] → t.bus.peek a = s.bus.peek a) ∧
        SameSession s t) ∨
      (i.mnem ∉ [.xaa, .lxa, .las] ∧ 0x8000 ≤ ea.toNat ∧
        ∃ v, FaultedFrom (.illegalWrite ea v) (.opcodeAt (s.cpu.pc - 1#16)) s t))

/-! ## Faults (spec/60_exceptions.md) -/

/-- R65, R159, R403, R405, with decisions D13 and D21: an instruction that reads its operand, or stores to one, enters
Faulted at the first address of its accesses that it cannot read, with PrgIndexOutOfRange. The reads before it happened;
no byte is stored. -/
def Obligations.UnreadableOperandFaults : Prop :=
  ∀ (i : Instr) (s : State) (l l' : List Word) (a : Word), i.operand.mode ≠ .noneAddressing → i.mnem ∉ unstableMnems →
    (if i.mnem ∈ storeMnems then eaReads i.operand s.cpu else operandReads i.operand s.cpu s.bus) = l ++ a :: l' →
    s.bus.readableAll l = true → s.bus.readable a = false →
    ∃ t, exec i s = .next t ∧ t.diag = s.diag ++ readEventsAll l ∧
      FaultedFrom (.prgIndexOutOfRange a (prgIndex s.bus.cart a)) (.opcodeAt (s.cpu.pc - 1#16)) s t

/-- R401, R402, R406: an instruction can enter Faulted for no other reason than the three of R401 that a step can meet,
each with the info R401 records, and the record names its opcode's address. No instruction raises
UnsupportedAddressingMode (R149) or MalformedCartridge. -/
def Obligations.FaultsAreThoseOfTheSpec : Prop :=
  ∀ (i : Instr) (s t : State) (f : Fault) (site : Site), s.run.live = true → exec i s = .next t →
    t.run = .faulted f site →
    site = .opcodeAt (s.cpu.pc - 1#16) ∧
    ((f = .unimplementedOpcode i.opcode (s.cpu.pc - 1#16) ∧ i.implemented s.policy = false) ∨
      (∃ a v, f = .illegalWrite a v ∧ 0x8000 ≤ a.toNat) ∨
      (∃ a, f = .prgIndexOutOfRange a (prgIndex s.bus.cart a) ∧ s.bus.readable a = false))

/-! ## The step (spec/40_execution.md) -/

/-- R131, R134: with no hook call and the bytes at PC decoding to `i`, the step of a Running session is `exec i` in the
state whose PC is one further and to which the opcode's Bus read has appended its event. -/
def Obligations.StepRunsDecodedInstruction : Prop :=
  ∀ (s : State) (i : Instr) (rest : List Byte), s.run = .running → s.nextHook = HookCall.noop →
    s.bus.readable s.cpu.pc = true →
    decode [s.bus.peek s.cpu.pc, s.bus.peek (s.cpu.pc + 1#16), s.bus.peek (s.cpu.pc + 2#16)] = .ok (i, rest) →
    step s = exec i { s with
      cpu := { s.cpu with pc := s.cpu.pc + 1#16 }
      diag := s.diag ++ readEvents s.cpu.pc
      hooks := s.hooks.tail }

/-- R131, R404 and log entry 6: a step of a Running session always answers a next state; a Halted session is refused one;
a Faulted one answers its recorded fault. -/
def Obligations.StepByRunState : Prop :=
  ∀ (s : State), (s.run = .running → ∃ t, step s = .next t) ∧ (s.run = .halted → step s = .refused .halted) ∧
    (∀ f site, s.run = .faulted f site → step s = .fault f)

/-- R134, R136, R287, with decision D37: a fetch from the stub window or the unmapped region reads 0x00, so it halts and
appends one event; a fetch past the PRG image enters Faulted at the opcode's address. -/
def Obligations.FetchOutsideCode : Prop :=
  ∀ (s : State), s.run = .running → s.nextHook = HookCall.noop →
    (0x2000 ≤ s.cpu.pc.toNat → s.cpu.pc.toNat ≤ 0x7FFF →
      step s = .next { s with
        run := .halted
        cpu := { s.cpu with pc := s.cpu.pc + 1#16 }
        diag := s.diag ++ readEvents s.cpu.pc
        hooks := s.hooks.tail } ∧ (readEvents s.cpu.pc).length = 1) ∧
    (s.bus.readable s.cpu.pc = false → ∃ t, step s = .next t ∧
      FaultedFrom (.prgIndexOutOfRange s.cpu.pc (prgIndex s.bus.cart s.cpu.pc)) (.opcodeAt s.cpu.pc) s.popHook t)

/-- R131, R420, R422: the hook's reads and writes come first. Its first write into the PRG window enters Faulted with
site Hook, and the writes before it stay; with none, the fetch and the instruction see them all. -/
def Obligations.HookComesFirst : Prop :=
  ∀ (c : HookCall) (s : State), s.run = .running → s.bus.readableAll c.reads = true →
    (∀ (l l' : List (Word × Byte)) (a : Word) (v : Byte), c.writes = l ++ (a, v) :: l' →
      l.all (fun w => writable w.1) = true → writable a = false →
      ∃ t u, hookWrites l s = .ok () u ∧ stepWith c s = .next t ∧ FaultedFrom (.illegalWrite a v) .hook u t) ∧
    (c.writes.all (fun w => writable w.1) = true →
      ∃ u, callHook c s = .ok () u ∧ u.cpu = s.cpu ∧ SameSession s u ∧ stepWith c s = stepWith HookCall.noop u)

/-- R131, R133, R136, R287, R404: a step halts the session only by running BRK, and then PC is the BRK's address plus
1. -/
def Obligations.OnlyBreakHalts : Prop :=
  ∀ (s t : State), s.nextHook = HookCall.noop → step s = .next t → t.run = .halted →
    s.bus.peek s.cpu.pc = 0x00#8 ∧ t.cpu = { s.cpu with pc := s.cpu.pc + 1#16 } ∧ t.bus = s.bus

/-- R36, R37, R41: every step keeps the invariant: the memories keep their canonical form, and U = 1 while the session is
not Faulted. And where B = 0 before a step, B = 0 after it. -/
def Obligations.StepKeepsInv : Prop :=
  ∀ (s t : State), s.Inv → step s = .next t →
    t.Inv ∧ (t.run.live = true → s.cpu.flag .b = false → t.cpu.flag .b = false)

/-- R36, R37, R461 and log entries 1 and 2: the invariant holds right after reset, and B = 0. -/
def Obligations.ResetHasInv : Prop := State.reset.Inv ∧ State.reset.cpu.flag .b = false

/-- R42, R64: no step changes the cartridge. R43, R408: events are only appended. The other two clauses are the model's
choice: that the policy, a parameter of R7, is a field of State, which no step changes (log entry 5), and that the hook of
R131 and R420 is a list in State, of which each step takes one call (log entry 7). -/
def Obligations.StepKeepsCartridge : Prop :=
  ∀ (s t : State), step s = .next t →
    t.bus.cart = s.bus.cart ∧ t.policy = s.policy ∧ t.hooks = s.hooks.tail ∧ s.diag <+: t.diag

/-- R43, R408: no rule reads the events. Two states that differ only in them step alike: the same events are appended,
and the next states differ in nothing else, but that nothing is said of the registers of a Faulted one (R403). -/
def Obligations.EventsDoNotInfluenceSteps : Prop :=
  ∀ (s t : State) (d : List Event), step s = .next t →
    ∃ (e : List Event) (u : State), t.diag = s.diag ++ e ∧ step { s with diag := d } = .next u ∧ u.diag = d ++ e ∧
      u.bus = t.bus ∧ u.run = t.run ∧ u.policy = t.policy ∧ u.hooks = t.hooks ∧ (t.run.live = true → u.cpu = t.cpu)

/-! ## Host operations, loader and tracer (spec/20_memory.md, spec/60_exceptions.md, spec/70_reset_and_hazards.md) -/

/-- R7, R460, R461, R463, with decision D2: a new session is what its parameters give, for every value of them. Reset sets
the registers, takes PC from the reset vector and starts Running; it leaves RAM, cartridge and events. With no PRG bank it
enters Faulted with site Reset. In Faulted it is refused and returns the record. -/
def Obligations.ResetOperation : Prop :=
  (∀ (p : Config.Params) (src : Source) (c : Cpu),
    (∀ r, src.cart p = .error r → newSession p src c = .fault (.malformedCartridge r)) ∧
    (∀ cart, src.cart p = .ok cart → ∃ s, newSession p src c = .next s ∧ s.cpu = c ∧ s.run = .halted ∧ s.diag = [] ∧
      s.policy = p.unstablePolicy ∧ s.bus.cart = cart ∧ s.bus.ram.wf 0x800 = true ∧
      (∀ k, k < 0x800 → s.bus.ram.read k = p.ramInit k) ∧
      (src = .harness → cart = { p.harnessCart with harness := true }))) ∧
  ∀ (s : State),
    (s.run.live = true → 0 < s.bus.cart.prgBanks → ∃ t, hostReset s = .next t ∧
      t.cpu = { a := 0x00#8, x := 0x00#8, y := 0x00#8, p := 0x24#8, sp := 0xFD#8, pc := s.bus.peek16 0xFFFC#16 } ∧
      t.run = .running ∧ t.bus = s.bus ∧ t.diag = s.diag ∧ t.policy = s.policy ∧ t.hooks = s.hooks) ∧
    (s.run.live = true → s.bus.cart.prgBanks = 0 → ∃ t, hostReset s = .next t ∧
      FaultedFrom (.prgIndexOutOfRange 0xFFFC#16 0x7FFC) .reset s t) ∧
    (∀ f site, s.run = .faulted f site → hostReset s = .refused (.sessionFaulted f site))

/-- R461, R462, R468, with decisions D16 and D17: a program loaded into RAM on a harness cartridge with a PRG bank is there,
byte by byte, after the reset that follows, and PC is its origin; and load_and_run, at any LOAD_ORIGIN there, is the run of
the session that reset leaves. -/
def Obligations.LoadThenReset : Prop :=
  ∀ (program : List Byte) (o : Word) (s : State), s.bus.wf = true → s.run.live = true → s.bus.cart.harness = true →
    0 < s.bus.cart.prgBanks → o.toNat + program.length ≤ 0x0800 →
    ∃ t u, hostLoad program o s = .next t ∧ t.cpu = s.cpu ∧ t.run = s.run ∧ t.diag = s.diag ∧
      hostReset t = .next u ∧ u.cpu.pc = o ∧ u.run = .running ∧
      (∀ k, k < program.length → u.bus.peek (o + BitVec.ofNat 16 k) = program.getD k 0x00#8) ∧
      ∀ (p : Config.Params) (fuel : Nat), p.loadOrigin = o →
        loadAndRun p program fuel s = .next (runLoop (fun _ _ => HookCall.noop) fuel u)

/-- R130, R466, R467, with decision D24: a run that ends, ends Halted or Faulted, and more fuel does not change how. A run
from Halted resumes at the current PC; a run in Faulted takes no step, is refused and returns the recorded fault. -/
def Obligations.RunEndsHaltedOrFaulted : Prop :=
  ∀ (hook : Cpu → Bus → HookCall) (n : Nat) (s : State),
    (∀ t, runLoop hook n s = some t → t.run ≠ .running ∧ ∀ m, n ≤ m → runLoop hook m s = some t) ∧
    (s.run.live = true → hostRunWith hook n s = .next (runLoop hook n { s with run := .running })) ∧
    (∀ f site, s.run = .faulted f site → hostRunWith hook n s = .refused (.sessionFaulted f site))

/-- R81 to R87, with decisions D5 and D14: the loader's checks in their order, each with its reason, and the cartridge it
builds. Three clauses are the model's choice: the two images are in canonical form (log entries 2 and 10), and the
cartridge does not carry the flag that marks HARNESS_CART (log entry 10). -/
def Obligations.LoaderChecksThenSlices : Prop :=
  ∀ (buf : List Byte),
    let start := 16 + (if (buf.getD 6 0x00#8).getLsbD 2 then 512 else 0)
    let prgSize := (buf.getD 4 0x00#8).toNat * 16384
    let chrSize := (buf.getD 5 0x00#8).toNat * 8192
    let version := ((buf.getD 7 0x00#8).getLsbD 2 || (buf.getD 7 0x00#8).getLsbD 3)
    (buf.length < 16 → loadCartridge buf = .error .shortHeader) ∧
    (16 ≤ buf.length → buf.take 4 ≠ [0x4E#8, 0x45#8, 0x53#8, 0x1A#8] → loadCartridge buf = .error .badMagic) ∧
    (16 ≤ buf.length → buf.take 4 = [0x4E#8, 0x45#8, 0x53#8, 0x1A#8] → version = true →
      loadCartridge buf = .error .unsupportedVersion) ∧
    (16 ≤ buf.length → buf.take 4 = [0x4E#8, 0x45#8, 0x53#8, 0x1A#8] → version = false →
      buf.length < start + prgSize + chrSize → loadCartridge buf = .error .truncated) ∧
    (16 ≤ buf.length → buf.take 4 = [0x4E#8, 0x45#8, 0x53#8, 0x1A#8] → version = false →
      start + prgSize + chrSize ≤ buf.length →
      ∃ c, loadCartridge buf = .ok c ∧ c.prgLength = prgSize ∧ c.chrBanks * 8192 = chrSize ∧
        (∀ k, k < prgSize → c.prg.read k = buf.getD (start + k) 0x00#8) ∧
        (∀ k, k < chrSize → c.chr.read k = buf.getD (start + prgSize + k) 0x00#8) ∧
        c.prg.wf prgSize = true ∧ c.chr.wf chrSize = true ∧ c.harness = false ∧
        c.mapper = ((buf.getD 7 0x00#8 &&& 0xF0#8) ||| (buf.getD 6 0x00#8 >>> 4)) ∧
        c.mirroring = (if (buf.getD 6 0x00#8).getLsbD 3 then .fourScreen
          else if (buf.getD 6 0x00#8).getLsbD 0 then .vertical else .horizontal))

/-- R444: every trace line is 73 characters long, whatever the state. -/
def Obligations.TraceLineHas73Characters : Prop :=
  ∀ (c : Cpu) (b : Bus), (trace c b).length = 73
end

