-- ==== Sys2Proof/Laws/State.lean ====
section
/-! SUPPORT. One lemma per field per update of State and of the register file, each true by rfl. -/

namespace Sys2Proof.Machine

/-! ## warn -/

@[simp] theorem warn_cpu (e : Event) (s : State) : (s.warn e).cpu = s.cpu := rfl
@[simp] theorem warn_bus (e : Event) (s : State) : (s.warn e).bus = s.bus := rfl
@[simp] theorem warn_run (e : Event) (s : State) : (s.warn e).run = s.run := rfl
@[simp] theorem warn_diag (e : Event) (s : State) : (s.warn e).diag = s.diag ++ [e] := rfl
@[simp] theorem warn_policy (e : Event) (s : State) : (s.warn e).policy = s.policy := rfl
@[simp] theorem warn_hooks (e : Event) (s : State) : (s.warn e).hooks = s.hooks := rfl

/-! ## setCpu -/

@[simp] theorem setCpu_cpu (c : Cpu) (s : State) : (s.setCpu c).cpu = c := rfl
@[simp] theorem setCpu_bus (c : Cpu) (s : State) : (s.setCpu c).bus = s.bus := rfl
@[simp] theorem setCpu_run (c : Cpu) (s : State) : (s.setCpu c).run = s.run := rfl
@[simp] theorem setCpu_diag (c : Cpu) (s : State) : (s.setCpu c).diag = s.diag := rfl
@[simp] theorem setCpu_policy (c : Cpu) (s : State) : (s.setCpu c).policy = s.policy := rfl
@[simp] theorem setCpu_hooks (c : Cpu) (s : State) : (s.setCpu c).hooks = s.hooks := rfl

/-! ## mapCpu -/

@[simp] theorem mapCpu_cpu (f : Cpu → Cpu) (s : State) : (s.mapCpu f).cpu = f s.cpu := rfl
@[simp] theorem mapCpu_bus (f : Cpu → Cpu) (s : State) : (s.mapCpu f).bus = s.bus := rfl
@[simp] theorem mapCpu_run (f : Cpu → Cpu) (s : State) : (s.mapCpu f).run = s.run := rfl
@[simp] theorem mapCpu_diag (f : Cpu → Cpu) (s : State) : (s.mapCpu f).diag = s.diag := rfl
@[simp] theorem mapCpu_policy (f : Cpu → Cpu) (s : State) : (s.mapCpu f).policy = s.policy := rfl
@[simp] theorem mapCpu_hooks (f : Cpu → Cpu) (s : State) : (s.mapCpu f).hooks = s.hooks := rfl

/-! ## setPc -/

@[simp] theorem setPc_cpu (pc : Word) (s : State) : (s.setPc pc).cpu = { s.cpu with pc := pc } := rfl
@[simp] theorem setPc_bus (pc : Word) (s : State) : (s.setPc pc).bus = s.bus := rfl
@[simp] theorem setPc_run (pc : Word) (s : State) : (s.setPc pc).run = s.run := rfl
@[simp] theorem setPc_diag (pc : Word) (s : State) : (s.setPc pc).diag = s.diag := rfl
@[simp] theorem setPc_policy (pc : Word) (s : State) : (s.setPc pc).policy = s.policy := rfl
@[simp] theorem setPc_hooks (pc : Word) (s : State) : (s.setPc pc).hooks = s.hooks := rfl

/-! ## setSp -/

@[simp] theorem setSp_cpu (sp : Byte) (s : State) : (s.setSp sp).cpu = { s.cpu with sp := sp } := rfl
@[simp] theorem setSp_bus (sp : Byte) (s : State) : (s.setSp sp).bus = s.bus := rfl
@[simp] theorem setSp_run (sp : Byte) (s : State) : (s.setSp sp).run = s.run := rfl
@[simp] theorem setSp_diag (sp : Byte) (s : State) : (s.setSp sp).diag = s.diag := rfl
@[simp] theorem setSp_policy (sp : Byte) (s : State) : (s.setSp sp).policy = s.policy := rfl
@[simp] theorem setSp_hooks (sp : Byte) (s : State) : (s.setSp sp).hooks = s.hooks := rfl

/-! ## setRun -/

@[simp] theorem setRun_cpu (r : Run) (s : State) : (s.setRun r).cpu = s.cpu := rfl
@[simp] theorem setRun_bus (r : Run) (s : State) : (s.setRun r).bus = s.bus := rfl
@[simp] theorem setRun_run (r : Run) (s : State) : (s.setRun r).run = r := rfl
@[simp] theorem setRun_diag (r : Run) (s : State) : (s.setRun r).diag = s.diag := rfl
@[simp] theorem setRun_policy (r : Run) (s : State) : (s.setRun r).policy = s.policy := rfl
@[simp] theorem setRun_hooks (r : Run) (s : State) : (s.setRun r).hooks = s.hooks := rfl

/-! ## setRam -/

@[simp] theorem setRam_cpu (m : Memory) (s : State) : (s.setRam m).cpu = s.cpu := rfl
@[simp] theorem setRam_bus (m : Memory) (s : State) : (s.setRam m).bus = { s.bus with ram := m } := rfl
@[simp] theorem setRam_run (m : Memory) (s : State) : (s.setRam m).run = s.run := rfl
@[simp] theorem setRam_diag (m : Memory) (s : State) : (s.setRam m).diag = s.diag := rfl
@[simp] theorem setRam_policy (m : Memory) (s : State) : (s.setRam m).policy = s.policy := rfl
@[simp] theorem setRam_hooks (m : Memory) (s : State) : (s.setRam m).hooks = s.hooks := rfl

/-! ## enterFaulted -/

@[simp] theorem enterFaulted_cpu (f : Fault) (site : Site) (s : State) : (s.enterFaulted f site).cpu = Config.faultedCpu f.code s.cpu s.bus := rfl
@[simp] theorem enterFaulted_bus (f : Fault) (site : Site) (s : State) : (s.enterFaulted f site).bus = s.bus := rfl
@[simp] theorem enterFaulted_run (f : Fault) (site : Site) (s : State) : (s.enterFaulted f site).run = .faulted f site := rfl
@[simp] theorem enterFaulted_diag (f : Fault) (site : Site) (s : State) : (s.enterFaulted f site).diag = s.diag := rfl
@[simp] theorem enterFaulted_policy (f : Fault) (site : Site) (s : State) : (s.enterFaulted f site).policy = s.policy := rfl
@[simp] theorem enterFaulted_hooks (f : Fault) (site : Site) (s : State) : (s.enterFaulted f site).hooks = s.hooks := rfl

/-! ## popHook -/

@[simp] theorem popHook_cpu (s : State) : s.popHook.cpu = s.cpu := rfl
@[simp] theorem popHook_bus (s : State) : s.popHook.bus = s.bus := rfl
@[simp] theorem popHook_run (s : State) : s.popHook.run = s.run := rfl
@[simp] theorem popHook_diag (s : State) : s.popHook.diag = s.diag := rfl
@[simp] theorem popHook_policy (s : State) : s.popHook.policy = s.policy := rfl
@[simp] theorem popHook_hooks (s : State) : s.popHook.hooks = s.hooks.tail := rfl

/-! ## setFlag -/

@[simp] theorem setFlag_a (f : Flag) (v : Bool) (c : Cpu) : (c.setFlag f v).a = c.a := rfl
@[simp] theorem setFlag_x (f : Flag) (v : Bool) (c : Cpu) : (c.setFlag f v).x = c.x := rfl
@[simp] theorem setFlag_y (f : Flag) (v : Bool) (c : Cpu) : (c.setFlag f v).y = c.y := rfl
@[simp] theorem setFlag_p (f : Flag) (v : Bool) (c : Cpu) : (c.setFlag f v).p = withFlag f v c.p := rfl
@[simp] theorem setFlag_sp (f : Flag) (v : Bool) (c : Cpu) : (c.setFlag f v).sp = c.sp := rfl
@[simp] theorem setFlag_pc (f : Flag) (v : Bool) (c : Cpu) : (c.setFlag f v).pc = c.pc := rfl

/-! ## setZN -/

@[simp] theorem setZN_a (v : Byte) (c : Cpu) : (c.setZN v).a = c.a := rfl
@[simp] theorem setZN_x (v : Byte) (c : Cpu) : (c.setZN v).x = c.x := rfl
@[simp] theorem setZN_y (v : Byte) (c : Cpu) : (c.setZN v).y = c.y := rfl
@[simp] theorem setZN_sp (v : Byte) (c : Cpu) : (c.setZN v).sp = c.sp := rfl
@[simp] theorem setZN_pc (v : Byte) (c : Cpu) : (c.setZN v).pc = c.pc := rfl

/-! ## loadA -/

@[simp] theorem loadA_a (v : Byte) (c : Cpu) : (c.loadA v).a = v := rfl
@[simp] theorem loadA_x (v : Byte) (c : Cpu) : (c.loadA v).x = c.x := rfl
@[simp] theorem loadA_y (v : Byte) (c : Cpu) : (c.loadA v).y = c.y := rfl
@[simp] theorem loadA_sp (v : Byte) (c : Cpu) : (c.loadA v).sp = c.sp := rfl
@[simp] theorem loadA_pc (v : Byte) (c : Cpu) : (c.loadA v).pc = c.pc := rfl

/-! ## loadX -/

@[simp] theorem loadX_a (v : Byte) (c : Cpu) : (c.loadX v).a = c.a := rfl
@[simp] theorem loadX_x (v : Byte) (c : Cpu) : (c.loadX v).x = v := rfl
@[simp] theorem loadX_y (v : Byte) (c : Cpu) : (c.loadX v).y = c.y := rfl
@[simp] theorem loadX_sp (v : Byte) (c : Cpu) : (c.loadX v).sp = c.sp := rfl
@[simp] theorem loadX_pc (v : Byte) (c : Cpu) : (c.loadX v).pc = c.pc := rfl

/-! ## loadY -/

@[simp] theorem loadY_a (v : Byte) (c : Cpu) : (c.loadY v).a = c.a := rfl
@[simp] theorem loadY_x (v : Byte) (c : Cpu) : (c.loadY v).x = c.x := rfl
@[simp] theorem loadY_y (v : Byte) (c : Cpu) : (c.loadY v).y = v := rfl
@[simp] theorem loadY_sp (v : Byte) (c : Cpu) : (c.loadY v).sp = c.sp := rfl
@[simp] theorem loadY_pc (v : Byte) (c : Cpu) : (c.loadY v).pc = c.pc := rfl

/-! ## compare -/

@[simp] theorem compare_a (reg m : Byte) (c : Cpu) : (c.compare reg m).a = c.a := rfl
@[simp] theorem compare_x (reg m : Byte) (c : Cpu) : (c.compare reg m).x = c.x := rfl
@[simp] theorem compare_y (reg m : Byte) (c : Cpu) : (c.compare reg m).y = c.y := rfl
@[simp] theorem compare_sp (reg m : Byte) (c : Cpu) : (c.compare reg m).sp = c.sp := rfl
@[simp] theorem compare_pc (reg m : Byte) (c : Cpu) : (c.compare reg m).pc = c.pc := rfl

/-! ## addToA -/

@[simp] theorem addToA_a (m : Byte) (c : Cpu) : (c.addToA m).a = BitVec.ofNat 8 (adderSum c.a m (c.flag .c)) := rfl
@[simp] theorem addToA_x (m : Byte) (c : Cpu) : (c.addToA m).x = c.x := rfl
@[simp] theorem addToA_y (m : Byte) (c : Cpu) : (c.addToA m).y = c.y := rfl
@[simp] theorem addToA_sp (m : Byte) (c : Cpu) : (c.addToA m).sp = c.sp := rfl
@[simp] theorem addToA_pc (m : Byte) (c : Cpu) : (c.addToA m).pc = c.pc := rfl

end Sys2Proof.Machine
end

