-- ==== Sys2Proof/Laws/Memory.lean ====
section
/-! SUPPORT. Sparse memory: a read after a write, and the canonical form, which every operation keeps. -/

namespace Sys2Proof.Machine

@[simp] theorem Memory.read_nil (k : Nat) : Memory.read k [] = Memory.unlisted := rfl

/-- An index below every listed one reads as the unlisted value. -/
theorem Memory.read_below {k : Nat} {m : Memory} (h : m.all (fun c => decide (k < c.1)) = true) :
    Memory.read k m = Memory.unlisted := by
  induction m with
  | nil => rfl
  | cons c m ih =>
    obtain ⟨j, w⟩ := c
    simp only [List.all_cons, Bool.and_eq_true, decide_eq_true_eq] at h
    rw [Memory.read, if_neg (by omega), ih h.2]

theorem Memory.wf_cons {size k : Nat} {v : Byte} {m : Memory} :
    Memory.wf size ((k, v) :: m) = true ↔
      k < size ∧ v ≠ Memory.unlisted ∧ m.all (fun c => decide (k < c.1)) = true ∧ Memory.wf size m = true := by
  simp [Memory.wf, and_assoc]

/-- Keys above a bound stay above it when a key above it is written. -/
theorem Memory.all_lt_write {j k : Nat} {v : Byte} {m : Memory} (hjk : j < k)
    (h : m.all (fun c => decide (j < c.1)) = true) :
    (Memory.write k v m).all (fun c => decide (j < c.1)) = true := by
  induction m with
  | nil => by_cases hv : v = Memory.unlisted <;> simp [Memory.write, hv, hjk]
  | cons c m ih =>
    obtain ⟨i, w⟩ := c
    simp only [List.all_cons, Bool.and_eq_true, decide_eq_true_eq] at h
    have ih := ih h.2
    unfold Memory.write
    split_ifs <;> simp only [List.all_cons, h.1, h.2, ih, hjk, decide_true, Bool.and_self]

/-- A write inside the size keeps the canonical form. -/
theorem Memory.wf_write {size k : Nat} {v : Byte} {m : Memory} (hk : k < size) (h : Memory.wf size m = true) :
    Memory.wf size (Memory.write k v m) = true := by
  induction m with
  | nil => by_cases hv : v = Memory.unlisted <;> simp [Memory.write, Memory.wf, hv, hk]
  | cons c m ih =>
    obtain ⟨j, w⟩ := c
    have hc := Memory.wf_cons.1 h
    unfold Memory.write
    split_ifs with h1 h2 h3 h4
    · exact h
    · refine Memory.wf_cons.2 ⟨hk, h2, ?_, h⟩
      have := hc.2.2.1
      simp only [List.all_cons, Bool.and_eq_true, decide_eq_true_eq, List.all_eq_true] at this ⊢
      exact ⟨h1, fun x hx => Nat.lt_trans h1 (this x hx)⟩
    · exact hc.2.2.2
    · exact Memory.wf_cons.2 ⟨hk, h4, h3 ▸ hc.2.2.1, hc.2.2.2⟩
    · exact Memory.wf_cons.2 ⟨hc.1, hc.2.1, Memory.all_lt_write (by omega) hc.2.2.1, ih hc.2.2.2⟩

/-- A read after a write, for a memory in canonical form. -/
theorem Memory.read_write {size : Nat} {m : Memory} (h : Memory.wf size m = true) (k k' : Nat) (v : Byte) :
    Memory.read k' (Memory.write k v m) = if k = k' then v else Memory.read k' m := by
  induction m with
  | nil =>
    by_cases hv : v = Memory.unlisted
    · simp [Memory.write, hv]
    · simp [Memory.write, hv, Memory.read]
  | cons c m ih =>
    obtain ⟨j, w⟩ := c
    have hc := Memory.wf_cons.1 h
    have ih := ih hc.2.2.2
    have below : k ≤ j → k = k' → Memory.read k' m = Memory.unlisted := fun hkj e => by
      subst e
      apply Memory.read_below
      have := hc.2.2.1
      simp only [decide_eq_true_eq, List.all_eq_true] at this ⊢
      exact fun x hx => Nat.lt_of_le_of_lt hkj (this x hx)
    unfold Memory.write
    split_ifs with h1 h2 h3 h4 h5 h6 h7
    · subst h3; rw [Memory.read, if_neg (by omega), below (by omega) rfl, h2]
    · rfl
    · subst h4; simp [Memory.read]
    · simp [Memory.read, h4]
    · subst h7; rw [below (by omega) rfl, h6]
    all_goals simp_all [Memory.read]
    all_goals grind

theorem Memory.ofBytes_above (j k : Nat) (l : List Byte) (h : j < k) :
    (Memory.ofBytes k l).all (fun c => decide (j < c.1)) = true := by
  induction l generalizing k with
  | nil => rfl
  | cons b l ih =>
    unfold Memory.ofBytes
    split_ifs
    · exact ih (k + 1) (by omega)
    · simp [h, ih (k + 1) (by omega)]

/-- The memory of a byte sequence is in canonical form. -/
theorem Memory.wf_ofBytes (size k : Nat) (l : List Byte) (h : k + l.length ≤ size) :
    Memory.wf size (Memory.ofBytes k l) = true := by
  induction l generalizing k with
  | nil => rfl
  | cons b l ih =>
    simp only [List.length_cons] at h
    unfold Memory.ofBytes
    split_ifs with hb
    · exact ih (k + 1) (by omega)
    · exact Memory.wf_cons.2 ⟨by omega, hb, Memory.ofBytes_above _ _ _ (by omega), ih (k + 1) (by omega)⟩

/-- The memory of a byte sequence reads as the sequence. -/
theorem Memory.read_ofBytes (k : Nat) (l : List Byte) (n : Nat) :
    Memory.read (k + n) (Memory.ofBytes k l) = l.getD n Memory.unlisted := by
  induction l generalizing k n with
  | nil => simp [Memory.ofBytes]
  | cons b l ih =>
    unfold Memory.ofBytes
    cases n with
    | zero =>
      split_ifs with hb
      · rw [Memory.read_below (Memory.ofBytes_above _ _ _ (by omega)), List.getD_cons_zero, hb]
      · simp [Memory.read]
    | succ n =>
      have e : k + (n + 1) = k + 1 + n := by omega
      split_ifs with hb
      · rw [e, ih, List.getD_cons_succ]
      · rw [Memory.read, if_neg (by omega), e, ih, List.getD_cons_succ]

end Sys2Proof.Machine
end

