-- ==== Sys2Proof/Laws/Bus.lean ====
section
/-! SUPPORT. One spec lemma per Bus operation and stack primitive: what it answers and everything it can change. -/

namespace Sys2Proof.Machine

/-! ## Regions -/

/-- The region of an address, by its number (spec/20_memory.md R61). -/
theorem region_eq (a : Word) :
    region a = if a.toNat ≤ 0x1FFF then .ram else if a.toNat ≤ 0x3FFF then .ppuStub
      else if 0x8000 ≤ a.toNat then .prgRom else .unmapped := by
  simp only [region, BitVec.le_def]
  rfl

/-- The RAM index of an address, by its number (R62). -/
theorem ramIndex_eq (a : Word) : ramIndex a = a.toNat % 0x800 := by
  unfold ramIndex
  rw [BitVec.toNat_and]
  exact Nat.and_two_pow_sub_one_eq_mod a.toNat 11

theorem writable_eq_false (a : Word) : writable a = false ↔ 0x8000 ≤ a.toNat := by
  have ha := a.isLt
  unfold writable
  rw [region_eq]
  split_ifs <;> simp <;> omega

/-! ## Reads -/

/-- The state after a list of Bus reads: only events are appended. -/
def State.logReads (l : List Word) (s : State) : State := { s with diag := s.diag ++ readEventsAll l }

@[simp] theorem logReads_cpu (l : List Word) (s : State) : (s.logReads l).cpu = s.cpu := rfl
@[simp] theorem logReads_bus (l : List Word) (s : State) : (s.logReads l).bus = s.bus := rfl
@[simp] theorem logReads_run (l : List Word) (s : State) : (s.logReads l).run = s.run := rfl
@[simp] theorem logReads_policy (l : List Word) (s : State) : (s.logReads l).policy = s.policy := rfl
@[simp] theorem logReads_hooks (l : List Word) (s : State) : (s.logReads l).hooks = s.hooks := rfl
@[simp] theorem logReads_diag (l : List Word) (s : State) : (s.logReads l).diag = s.diag ++ readEventsAll l := rfl

@[simp] theorem logReads_nil (s : State) : s.logReads [] = s := by simp [State.logReads, readEventsAll]

@[simp] theorem logReads_logReads (l l' : List Word) (s : State) :
    (s.logReads l).logReads l' = s.logReads (l ++ l') := by
  simp [State.logReads, readEventsAll]

@[simp] theorem bind_ok {α β : Type} (v : α) (s : State) (k : α → State → Res β) :
    (Res.ok v s).bind k = k v s := rfl

@[simp] theorem bind_raise {α β : Type} (f : Fault) (s : State) (k : α → State → Res β) :
    (Res.raise f s : Res α).bind k = .raise f s := rfl

/-- Everything a Bus read can do: the peeked byte and an event, or, past the PRG image, a fault that changes
nothing. -/
theorem memRead_eq (a : Word) (s : State) :
    memRead a s = if s.bus.readable a = true then .ok (s.bus.peek a) (s.logReads [a])
      else .raise (.prgIndexOutOfRange a (prgIndex s.bus.cart a)) s := by
  unfold memRead Bus.readable Bus.peek State.logReads readEventsAll
  cases h : region a <;> simp [h, readEvents, State.warn]
  split <;> rfl

theorem memRead_ok {a : Word} {s : State} (h : s.bus.readable a = true) :
    memRead a s = .ok (s.bus.peek a) (s.logReads [a]) := by rw [memRead_eq, if_pos h]

theorem memRead_bad {a : Word} {s : State} (h : s.bus.readable a = false) :
    memRead a s = .raise (.prgIndexOutOfRange a (prgIndex s.bus.cart a)) s := by
  rw [memRead_eq, if_neg (by simp [h])]

/-- Everything a 16-bit read can do: it faults at its first unreadable byte (R66). -/
theorem memRead16_eq (a : Word) (s : State) :
    memRead16 a s =
      if s.bus.readable a = false then .raise (.prgIndexOutOfRange a (prgIndex s.bus.cart a)) s
      else if s.bus.readable (a + 1#16) = false then
        .raise (.prgIndexOutOfRange (a + 1#16) (prgIndex s.bus.cart (a + 1#16))) (s.logReads [a])
      else .ok (wordOf (s.bus.peek (a + 1#16)) (s.bus.peek a)) (s.logReads [a, a + 1#16]) := by
  unfold memRead16
  cases h : s.bus.readable a
  · simp [memRead_bad h]
  · rw [memRead_ok h]
    cases h2 : s.bus.readable (a + 1#16) <;> simp [memRead_eq, h2]

theorem memRead16_ok {a : Word} {s : State} (h : s.bus.readableAll [a, a + 1#16] = true) :
    memRead16 a s = .ok (wordOf (s.bus.peek (a + 1#16)) (s.bus.peek a)) (s.logReads [a, a + 1#16]) := by
  simp only [Bus.readableAll, List.all_cons, List.all_nil, Bool.and_true, Bool.and_eq_true] at h
  simp [memRead16, memRead_ok h.1, memRead_ok (s := s.logReads [a]) (a := a + 1#16) (by simpa using h.2)]

theorem readableAll_append (b : Bus) (l l' : List Word) :
    b.readableAll (l ++ l') = (b.readableAll l && b.readableAll l') := by simp [Bus.readableAll]

/-- An address outside the PRG window can always be read. -/
theorem readable_of_region {b : Bus} {a : Word} (h : region a ≠ .prgRom) : b.readable a = true := by
  simp [Bus.readable, h]

/-- With at least one PRG bank, every address can be read (spec/20_memory.md R65). -/
theorem readable_of_bank {b : Bus} (h : 0 < b.cart.prgBanks) (a : Word) : b.readable a = true := by
  have ha := a.isLt
  simp only [Bus.readable, Bool.or_eq_true, decide_eq_true_eq]
  right
  unfold prgIndex Cart.prgLength
  by_cases h1 : b.cart.prgBanks * 0x4000 = 0x4000
  · simp only [h1, if_true]; omega
  · simp only [h1, if_false]; omega

/-! ## Writes -/

/-- The state after a Bus write that raises no fault. -/
def State.wrote (a : Word) (v : Byte) (s : State) : State :=
  match region a with
  | .ram => s.setRam (s.bus.ram.write (ramIndex a) v)
  | .ppuStub => s.warn (.ppuStubWrite a v)
  | .unmapped => s.warn (.invalidAddressWrite a v)
  | .prgRom => s

@[simp] theorem wrote_cpu (a : Word) (v : Byte) (s : State) : (s.wrote a v).cpu = s.cpu := by
  unfold State.wrote; split <;> rfl
@[simp] theorem wrote_cart (a : Word) (v : Byte) (s : State) : (s.wrote a v).bus.cart = s.bus.cart := by
  unfold State.wrote; split <;> rfl
@[simp] theorem wrote_run (a : Word) (v : Byte) (s : State) : (s.wrote a v).run = s.run := by
  unfold State.wrote; split <;> rfl
@[simp] theorem wrote_policy (a : Word) (v : Byte) (s : State) : (s.wrote a v).policy = s.policy := by
  unfold State.wrote; split <;> rfl
@[simp] theorem wrote_hooks (a : Word) (v : Byte) (s : State) : (s.wrote a v).hooks = s.hooks := by
  unfold State.wrote; split <;> rfl
@[simp] theorem wrote_diag (a : Word) (v : Byte) (s : State) :
    (s.wrote a v).diag = s.diag ++ writeEvents a v := by
  unfold State.wrote writeEvents; split <;> simp [*]

/-- Everything a Bus write can do (spec/20_memory.md R64). -/
theorem memWrite_eq (a : Word) (v : Byte) (s : State) :
    memWrite a v s = if writable a = true then .ok () (s.wrote a v) else .raise (.illegalWrite a v) s := by
  unfold memWrite writable State.wrote
  cases region a <;> simp

theorem memWrite_ok {a : Word} (v : Byte) (s : State) (h : writable a = true) :
    memWrite a v s = .ok () (s.wrote a v) := by rw [memWrite_eq, if_pos h]

/-- The two address parts of a RAM address fit its 2048 bytes. -/
theorem ramIndex_lt (a : Word) : ramIndex a < 0x800 := by
  unfold ramIndex
  rw [BitVec.toNat_and]
  exact Nat.lt_of_le_of_lt Nat.and_le_right (by decide)

/-- What every address reads as after a Bus write: the stored byte where the same RAM byte is reached, as before
elsewhere. -/
theorem peek_wrote {s : State} (hw : s.bus.ram.wf 0x800 = true) (a a' : Word) (v : Byte) :
    (s.wrote a v).bus.peek a' = if sameRamByte a a' then v else s.bus.peek a' := by
  unfold State.wrote sameRamByte Bus.peek
  cases h : region a <;> cases h' : region a' <;>
    simp [Memory.read_write hw, State.warn, State.setRam] <;> rfl

/-- A Bus write keeps the canonical form of the RAM. -/
theorem wrote_ram_wf {s : State} (hw : s.bus.ram.wf 0x800 = true) (a : Word) (v : Byte) :
    (s.wrote a v).bus.ram.wf 0x800 = true := by
  unfold State.wrote
  cases h : region a <;> simp [State.warn, State.setRam, hw]
  exact Memory.wf_write (ramIndex_lt a) hw

/-- A Bus write keeps which addresses can be read. -/
@[simp] theorem readable_wrote (a a' : Word) (v : Byte) (s : State) :
    (s.wrote a v).bus.readable a' = s.bus.readable a' := by simp [Bus.readable]

/-! ## The stack -/

/-- The stack page is RAM (spec/40_execution.md R154). -/
theorem region_stackAddr (sp : Byte) : region (stackAddr sp) = .ram := by
  have h : stackAddr sp ≤ 0x1FFF#16 := by
    rw [BitVec.le_def]
    have := sp.isLt
    simp [stackAddr, Config.stackPage, zext16, BitVec.toNat_add]
    omega
  simp [region, h]

/-- A stack address is its own RAM index (R150). -/
theorem ramIndex_stackAddr (sp : Byte) : ramIndex (stackAddr sp) = 0x100 + sp.toNat := by
  revert sp; decide +kernel

/-- Two stack bytes are the same RAM byte only if they are the same stack byte. -/
theorem sameRamByte_stackAddr (x y : Byte) : sameRamByte (stackAddr x) (stackAddr y) = decide (x = y) := by
  simp only [sameRamByte, region_stackAddr, ramIndex_stackAddr]
  rw [Bool.eq_iff_iff]
  simp only [beq_self_eq_true, Bool.and_self, Bool.true_and, beq_iff_eq, decide_eq_true_eq]
  exact ⟨fun h => BitVec.eq_of_toNat_eq (by omega), fun h => by rw [h]⟩

/-- Push never faults (R154): it stores at the stack address and decrements SP. -/
theorem push_eq (v : Byte) (s : State) :
    push v s = .ok () ((s.wrote (stackAddr s.cpu.sp) v).setSp (s.cpu.sp - 1#8)) := by
  simp [push, memWrite_ok v s (by simp [writable, region_stackAddr] : writable (stackAddr s.cpu.sp) = true)]

/-- Pop never faults (R154): it increments SP and reads there. -/
theorem pop_eq (s : State) :
    pop s = .ok (s.bus.peek (stackAddr (s.cpu.sp + 1#8))) (s.setSp (s.cpu.sp + 1#8)) := by
  have h : region (stackAddr (s.cpu.sp + 1#8)) = .ram := region_stackAddr _
  simp [pop, memRead, Bus.peek, h]

theorem pop16_eq (s : State) :
    pop16 s = .ok (wordOf (s.bus.peek (stackAddr (s.cpu.sp + 2#8))) (s.bus.peek (stackAddr (s.cpu.sp + 1#8))))
      (s.setSp (s.cpu.sp + 2#8)) := by
  have e : s.cpu.sp + 1#8 + 1#8 = s.cpu.sp + 2#8 := by rw [BitVec.add_assoc]; rfl
  simp [pop16, pop_eq, e, State.setSp]

end Sys2Proof.Machine
end

