-- ==== Sys2Proof/Laws/PerInstr.lean ====
section
/-! SUPPORT. The family TableRow: what the opcode table, the encoder and the decoder say of an instruction agree. One
lemma per constructor. -/

namespace Sys2Proof.Laws.TableRow

/-- What R106 says of the column `implemented`, by mnemonic. -/
def column (m : Mnem) : Implemented :=
  if m = .jam then .no else if m ∈ Machine.unstableMnems then .policy else .yes

/-- The instruction agrees with the row of its opcode, which gives its length and says whether it is
implemented, and the decoder reads it back from its opcode and operand bytes (spec/30_encoding.md R101, R103, R106,
R110). -/
def Statement (i : Instr) : Prop :=
  i.wf = true ∧ (rowOf i.opcode).length = i.length ∧ (rowOf i.opcode).implemented = column i.mnem ∧
    decodeBytes i.opcode (i.operand.bytes.getD 0 0x00#8) (i.operand.bytes.getD 1 0x00#8) = i

theorem oraIndX (zp : Byte) : Statement (.oraIndX zp) :=
  ⟨(rfl : (rowOf 0x01#8).describes .ora 0x01#8 .indX .indirectX 2 = true),
    (rfl : (rowOf 0x01#8).length = 2),
    (rfl : (rowOf 0x01#8).implemented = .yes),
    (rfl : decodeBytes 0x01#8 zp 0x00#8 = _)⟩

theorem sloIndX (zp : Byte) : Statement (.sloIndX zp) :=
  ⟨(rfl : (rowOf 0x03#8).describes .slo 0x03#8 .indX .indirectX 2 = true),
    (rfl : (rowOf 0x03#8).length = 2),
    (rfl : (rowOf 0x03#8).implemented = .yes),
    (rfl : decodeBytes 0x03#8 zp 0x00#8 = _)⟩

theorem nopZp04 (zp : Byte) : Statement (.nopZp04 zp) :=
  ⟨(rfl : (rowOf 0x04#8).describes .nop 0x04#8 .zp .zeroPage 2 = true),
    (rfl : (rowOf 0x04#8).length = 2),
    (rfl : (rowOf 0x04#8).implemented = .yes),
    (rfl : decodeBytes 0x04#8 zp 0x00#8 = _)⟩

theorem oraZp (zp : Byte) : Statement (.oraZp zp) :=
  ⟨(rfl : (rowOf 0x05#8).describes .ora 0x05#8 .zp .zeroPage 2 = true),
    (rfl : (rowOf 0x05#8).length = 2),
    (rfl : (rowOf 0x05#8).implemented = .yes),
    (rfl : decodeBytes 0x05#8 zp 0x00#8 = _)⟩

theorem aslZp (zp : Byte) : Statement (.aslZp zp) :=
  ⟨(rfl : (rowOf 0x06#8).describes .asl 0x06#8 .zp .zeroPage 2 = true),
    (rfl : (rowOf 0x06#8).length = 2),
    (rfl : (rowOf 0x06#8).implemented = .yes),
    (rfl : decodeBytes 0x06#8 zp 0x00#8 = _)⟩

theorem sloZp (zp : Byte) : Statement (.sloZp zp) :=
  ⟨(rfl : (rowOf 0x07#8).describes .slo 0x07#8 .zp .zeroPage 2 = true),
    (rfl : (rowOf 0x07#8).length = 2),
    (rfl : (rowOf 0x07#8).implemented = .yes),
    (rfl : decodeBytes 0x07#8 zp 0x00#8 = _)⟩

theorem oraImm (imm : Byte) : Statement (.oraImm imm) :=
  ⟨(rfl : (rowOf 0x09#8).describes .ora 0x09#8 .imm .immediate 2 = true),
    (rfl : (rowOf 0x09#8).length = 2),
    (rfl : (rowOf 0x09#8).implemented = .yes),
    (rfl : decodeBytes 0x09#8 imm 0x00#8 = _)⟩

theorem ancImm0B (imm : Byte) : Statement (.ancImm0B imm) :=
  ⟨(rfl : (rowOf 0x0B#8).describes .anc 0x0B#8 .imm .immediate 2 = true),
    (rfl : (rowOf 0x0B#8).length = 2),
    (rfl : (rowOf 0x0B#8).implemented = .yes),
    (rfl : decodeBytes 0x0B#8 imm 0x00#8 = _)⟩

theorem nopAbs0C (addr : Word) : Statement (.nopAbs0C addr) :=
  ⟨(rfl : (rowOf 0x0C#8).describes .nop 0x0C#8 .abs .absolute 3 = true),
    (rfl : (rowOf 0x0C#8).length = 3),
    (rfl : (rowOf 0x0C#8).implemented = .yes),
    (Eq.trans (rfl : decodeBytes 0x0C#8 (lowByte addr) (highByte addr) = _) (congrArg Instr.nopAbs0C (wordOf_high_low addr)))⟩

theorem oraAbs (addr : Word) : Statement (.oraAbs addr) :=
  ⟨(rfl : (rowOf 0x0D#8).describes .ora 0x0D#8 .abs .absolute 3 = true),
    (rfl : (rowOf 0x0D#8).length = 3),
    (rfl : (rowOf 0x0D#8).implemented = .yes),
    (Eq.trans (rfl : decodeBytes 0x0D#8 (lowByte addr) (highByte addr) = _) (congrArg Instr.oraAbs (wordOf_high_low addr)))⟩

theorem aslAbs (addr : Word) : Statement (.aslAbs addr) :=
  ⟨(rfl : (rowOf 0x0E#8).describes .asl 0x0E#8 .abs .absolute 3 = true),
    (rfl : (rowOf 0x0E#8).length = 3),
    (rfl : (rowOf 0x0E#8).implemented = .yes),
    (Eq.trans (rfl : decodeBytes 0x0E#8 (lowByte addr) (highByte addr) = _) (congrArg Instr.aslAbs (wordOf_high_low addr)))⟩

theorem sloAbs (addr : Word) : Statement (.sloAbs addr) :=
  ⟨(rfl : (rowOf 0x0F#8).describes .slo 0x0F#8 .abs .absolute 3 = true),
    (rfl : (rowOf 0x0F#8).length = 3),
    (rfl : (rowOf 0x0F#8).implemented = .yes),
    (Eq.trans (rfl : decodeBytes 0x0F#8 (lowByte addr) (highByte addr) = _) (congrArg Instr.sloAbs (wordOf_high_low addr)))⟩

theorem bpl (off : Byte) : Statement (.bpl off) :=
  ⟨(rfl : (rowOf 0x10#8).describes .bpl 0x10#8 .rel .noneAddressing 2 = true),
    (rfl : (rowOf 0x10#8).length = 2),
    (rfl : (rowOf 0x10#8).implemented = .yes),
    (rfl : decodeBytes 0x10#8 off 0x00#8 = _)⟩

theorem oraIndY (zp : Byte) : Statement (.oraIndY zp) :=
  ⟨(rfl : (rowOf 0x11#8).describes .ora 0x11#8 .indY .indirectY 2 = true),
    (rfl : (rowOf 0x11#8).length = 2),
    (rfl : (rowOf 0x11#8).implemented = .yes),
    (rfl : decodeBytes 0x11#8 zp 0x00#8 = _)⟩

theorem sloIndY (zp : Byte) : Statement (.sloIndY zp) :=
  ⟨(rfl : (rowOf 0x13#8).describes .slo 0x13#8 .indY .indirectY 2 = true),
    (rfl : (rowOf 0x13#8).length = 2),
    (rfl : (rowOf 0x13#8).implemented = .yes),
    (rfl : decodeBytes 0x13#8 zp 0x00#8 = _)⟩

theorem nopZpX14 (zp : Byte) : Statement (.nopZpX14 zp) :=
  ⟨(rfl : (rowOf 0x14#8).describes .nop 0x14#8 .zpX .zeroPageX 2 = true),
    (rfl : (rowOf 0x14#8).length = 2),
    (rfl : (rowOf 0x14#8).implemented = .yes),
    (rfl : decodeBytes 0x14#8 zp 0x00#8 = _)⟩

theorem oraZpX (zp : Byte) : Statement (.oraZpX zp) :=
  ⟨(rfl : (rowOf 0x15#8).describes .ora 0x15#8 .zpX .zeroPageX 2 = true),
    (rfl : (rowOf 0x15#8).length = 2),
    (rfl : (rowOf 0x15#8).implemented = .yes),
    (rfl : decodeBytes 0x15#8 zp 0x00#8 = _)⟩

theorem aslZpX (zp : Byte) : Statement (.aslZpX zp) :=
  ⟨(rfl : (rowOf 0x16#8).describes .asl 0x16#8 .zpX .zeroPageX 2 = true),
    (rfl : (rowOf 0x16#8).length = 2),
    (rfl : (rowOf 0x16#8).implemented = .yes),
    (rfl : decodeBytes 0x16#8 zp 0x00#8 = _)⟩

theorem sloZpX (zp : Byte) : Statement (.sloZpX zp) :=
  ⟨(rfl : (rowOf 0x17#8).describes .slo 0x17#8 .zpX .zeroPageX 2 = true),
    (rfl : (rowOf 0x17#8).length = 2),
    (rfl : (rowOf 0x17#8).implemented = .yes),
    (rfl : decodeBytes 0x17#8 zp 0x00#8 = _)⟩

theorem oraAbsY (addr : Word) : Statement (.oraAbsY addr) :=
  ⟨(rfl : (rowOf 0x19#8).describes .ora 0x19#8 .absY .absoluteY 3 = true),
    (rfl : (rowOf 0x19#8).length = 3),
    (rfl : (rowOf 0x19#8).implemented = .yes),
    (Eq.trans (rfl : decodeBytes 0x19#8 (lowByte addr) (highByte addr) = _) (congrArg Instr.oraAbsY (wordOf_high_low addr)))⟩

theorem sloAbsY (addr : Word) : Statement (.sloAbsY addr) :=
  ⟨(rfl : (rowOf 0x1B#8).describes .slo 0x1B#8 .absY .absoluteY 3 = true),
    (rfl : (rowOf 0x1B#8).length = 3),
    (rfl : (rowOf 0x1B#8).implemented = .yes),
    (Eq.trans (rfl : decodeBytes 0x1B#8 (lowByte addr) (highByte addr) = _) (congrArg Instr.sloAbsY (wordOf_high_low addr)))⟩

theorem nopAbsX1C (addr : Word) : Statement (.nopAbsX1C addr) :=
  ⟨(rfl : (rowOf 0x1C#8).describes .nop 0x1C#8 .absX .absoluteX 3 = true),
    (rfl : (rowOf 0x1C#8).length = 3),
    (rfl : (rowOf 0x1C#8).implemented = .yes),
    (Eq.trans (rfl : decodeBytes 0x1C#8 (lowByte addr) (highByte addr) = _) (congrArg Instr.nopAbsX1C (wordOf_high_low addr)))⟩

theorem oraAbsX (addr : Word) : Statement (.oraAbsX addr) :=
  ⟨(rfl : (rowOf 0x1D#8).describes .ora 0x1D#8 .absX .absoluteX 3 = true),
    (rfl : (rowOf 0x1D#8).length = 3),
    (rfl : (rowOf 0x1D#8).implemented = .yes),
    (Eq.trans (rfl : decodeBytes 0x1D#8 (lowByte addr) (highByte addr) = _) (congrArg Instr.oraAbsX (wordOf_high_low addr)))⟩

theorem aslAbsX (addr : Word) : Statement (.aslAbsX addr) :=
  ⟨(rfl : (rowOf 0x1E#8).describes .asl 0x1E#8 .absX .absoluteX 3 = true),
    (rfl : (rowOf 0x1E#8).length = 3),
    (rfl : (rowOf 0x1E#8).implemented = .yes),
    (Eq.trans (rfl : decodeBytes 0x1E#8 (lowByte addr) (highByte addr) = _) (congrArg Instr.aslAbsX (wordOf_high_low addr)))⟩

theorem sloAbsX (addr : Word) : Statement (.sloAbsX addr) :=
  ⟨(rfl : (rowOf 0x1F#8).describes .slo 0x1F#8 .absX .absoluteX 3 = true),
    (rfl : (rowOf 0x1F#8).length = 3),
    (rfl : (rowOf 0x1F#8).implemented = .yes),
    (Eq.trans (rfl : decodeBytes 0x1F#8 (lowByte addr) (highByte addr) = _) (congrArg Instr.sloAbsX (wordOf_high_low addr)))⟩

theorem jsr (addr : Word) : Statement (.jsr addr) :=
  ⟨(rfl : (rowOf 0x20#8).describes .jsr 0x20#8 .abs .noneAddressing 3 = true),
    (rfl : (rowOf 0x20#8).length = 3),
    (rfl : (rowOf 0x20#8).implemented = .yes),
    (Eq.trans (rfl : decodeBytes 0x20#8 (lowByte addr) (highByte addr) = _) (congrArg Instr.jsr (wordOf_high_low addr)))⟩

theorem andIndX (zp : Byte) : Statement (.andIndX zp) :=
  ⟨(rfl : (rowOf 0x21#8).describes .and 0x21#8 .indX .indirectX 2 = true),
    (rfl : (rowOf 0x21#8).length = 2),
    (rfl : (rowOf 0x21#8).implemented = .yes),
    (rfl : decodeBytes 0x21#8 zp 0x00#8 = _)⟩

theorem rlaIndX (zp : Byte) : Statement (.rlaIndX zp) :=
  ⟨(rfl : (rowOf 0x23#8).describes .rla 0x23#8 .indX .indirectX 2 = true),
    (rfl : (rowOf 0x23#8).length = 2),
    (rfl : (rowOf 0x23#8).implemented = .yes),
    (rfl : decodeBytes 0x23#8 zp 0x00#8 = _)⟩

theorem bitZp (zp : Byte) : Statement (.bitZp zp) :=
  ⟨(rfl : (rowOf 0x24#8).describes .bit 0x24#8 .zp .zeroPage 2 = true),
    (rfl : (rowOf 0x24#8).length = 2),
    (rfl : (rowOf 0x24#8).implemented = .yes),
    (rfl : decodeBytes 0x24#8 zp 0x00#8 = _)⟩

theorem andZp (zp : Byte) : Statement (.andZp zp) :=
  ⟨(rfl : (rowOf 0x25#8).describes .and 0x25#8 .zp .zeroPage 2 = true),
    (rfl : (rowOf 0x25#8).length = 2),
    (rfl : (rowOf 0x25#8).implemented = .yes),
    (rfl : decodeBytes 0x25#8 zp 0x00#8 = _)⟩

theorem rolZp (zp : Byte) : Statement (.rolZp zp) :=
  ⟨(rfl : (rowOf 0x26#8).describes .rol 0x26#8 .zp .zeroPage 2 = true),
    (rfl : (rowOf 0x26#8).length = 2),
    (rfl : (rowOf 0x26#8).implemented = .yes),
    (rfl : decodeBytes 0x26#8 zp 0x00#8 = _)⟩

theorem rlaZp (zp : Byte) : Statement (.rlaZp zp) :=
  ⟨(rfl : (rowOf 0x27#8).describes .rla 0x27#8 .zp .zeroPage 2 = true),
    (rfl : (rowOf 0x27#8).length = 2),
    (rfl : (rowOf 0x27#8).implemented = .yes),
    (rfl : decodeBytes 0x27#8 zp 0x00#8 = _)⟩

theorem andImm (imm : Byte) : Statement (.andImm imm) :=
  ⟨(rfl : (rowOf 0x29#8).describes .and 0x29#8 .imm .immediate 2 = true),
    (rfl : (rowOf 0x29#8).length = 2),
    (rfl : (rowOf 0x29#8).implemented = .yes),
    (rfl : decodeBytes 0x29#8 imm 0x00#8 = _)⟩

theorem ancImm2B (imm : Byte) : Statement (.ancImm2B imm) :=
  ⟨(rfl : (rowOf 0x2B#8).describes .anc 0x2B#8 .imm .immediate 2 = true),
    (rfl : (rowOf 0x2B#8).length = 2),
    (rfl : (rowOf 0x2B#8).implemented = .yes),
    (rfl : decodeBytes 0x2B#8 imm 0x00#8 = _)⟩

theorem bitAbs (addr : Word) : Statement (.bitAbs addr) :=
  ⟨(rfl : (rowOf 0x2C#8).describes .bit 0x2C#8 .abs .absolute 3 = true),
    (rfl : (rowOf 0x2C#8).length = 3),
    (rfl : (rowOf 0x2C#8).implemented = .yes),
    (Eq.trans (rfl : decodeBytes 0x2C#8 (lowByte addr) (highByte addr) = _) (congrArg Instr.bitAbs (wordOf_high_low addr)))⟩

theorem andAbs (addr : Word) : Statement (.andAbs addr) :=
  ⟨(rfl : (rowOf 0x2D#8).describes .and 0x2D#8 .abs .absolute 3 = true),
    (rfl : (rowOf 0x2D#8).length = 3),
    (rfl : (rowOf 0x2D#8).implemented = .yes),
    (Eq.trans (rfl : decodeBytes 0x2D#8 (lowByte addr) (highByte addr) = _) (congrArg Instr.andAbs (wordOf_high_low addr)))⟩

theorem rolAbs (addr : Word) : Statement (.rolAbs addr) :=
  ⟨(rfl : (rowOf 0x2E#8).describes .rol 0x2E#8 .abs .absolute 3 = true),
    (rfl : (rowOf 0x2E#8).length = 3),
    (rfl : (rowOf 0x2E#8).implemented = .yes),
    (Eq.trans (rfl : decodeBytes 0x2E#8 (lowByte addr) (highByte addr) = _) (congrArg Instr.rolAbs (wordOf_high_low addr)))⟩

theorem rlaAbs (addr : Word) : Statement (.rlaAbs addr) :=
  ⟨(rfl : (rowOf 0x2F#8).describes .rla 0x2F#8 .abs .absolute 3 = true),
    (rfl : (rowOf 0x2F#8).length = 3),
    (rfl : (rowOf 0x2F#8).implemented = .yes),
    (Eq.trans (rfl : decodeBytes 0x2F#8 (lowByte addr) (highByte addr) = _) (congrArg Instr.rlaAbs (wordOf_high_low addr)))⟩

theorem bmi (off : Byte) : Statement (.bmi off) :=
  ⟨(rfl : (rowOf 0x30#8).describes .bmi 0x30#8 .rel .noneAddressing 2 = true),
    (rfl : (rowOf 0x30#8).length = 2),
    (rfl : (rowOf 0x30#8).implemented = .yes),
    (rfl : decodeBytes 0x30#8 off 0x00#8 = _)⟩

theorem andIndY (zp : Byte) : Statement (.andIndY zp) :=
  ⟨(rfl : (rowOf 0x31#8).describes .and 0x31#8 .indY .indirectY 2 = true),
    (rfl : (rowOf 0x31#8).length = 2),
    (rfl : (rowOf 0x31#8).implemented = .yes),
    (rfl : decodeBytes 0x31#8 zp 0x00#8 = _)⟩

theorem rlaIndY (zp : Byte) : Statement (.rlaIndY zp) :=
  ⟨(rfl : (rowOf 0x33#8).describes .rla 0x33#8 .indY .indirectY 2 = true),
    (rfl : (rowOf 0x33#8).length = 2),
    (rfl : (rowOf 0x33#8).implemented = .yes),
    (rfl : decodeBytes 0x33#8 zp 0x00#8 = _)⟩

theorem nopZpX34 (zp : Byte) : Statement (.nopZpX34 zp) :=
  ⟨(rfl : (rowOf 0x34#8).describes .nop 0x34#8 .zpX .zeroPageX 2 = true),
    (rfl : (rowOf 0x34#8).length = 2),
    (rfl : (rowOf 0x34#8).implemented = .yes),
    (rfl : decodeBytes 0x34#8 zp 0x00#8 = _)⟩

theorem andZpX (zp : Byte) : Statement (.andZpX zp) :=
  ⟨(rfl : (rowOf 0x35#8).describes .and 0x35#8 .zpX .zeroPageX 2 = true),
    (rfl : (rowOf 0x35#8).length = 2),
    (rfl : (rowOf 0x35#8).implemented = .yes),
    (rfl : decodeBytes 0x35#8 zp 0x00#8 = _)⟩

theorem rolZpX (zp : Byte) : Statement (.rolZpX zp) :=
  ⟨(rfl : (rowOf 0x36#8).describes .rol 0x36#8 .zpX .zeroPageX 2 = true),
    (rfl : (rowOf 0x36#8).length = 2),
    (rfl : (rowOf 0x36#8).implemented = .yes),
    (rfl : decodeBytes 0x36#8 zp 0x00#8 = _)⟩

theorem rlaZpX (zp : Byte) : Statement (.rlaZpX zp) :=
  ⟨(rfl : (rowOf 0x37#8).describes .rla 0x37#8 .zpX .zeroPageX 2 = true),
    (rfl : (rowOf 0x37#8).length = 2),
    (rfl : (rowOf 0x37#8).implemented = .yes),
    (rfl : decodeBytes 0x37#8 zp 0x00#8 = _)⟩

theorem andAbsY (addr : Word) : Statement (.andAbsY addr) :=
  ⟨(rfl : (rowOf 0x39#8).describes .and 0x39#8 .absY .absoluteY 3 = true),
    (rfl : (rowOf 0x39#8).length = 3),
    (rfl : (rowOf 0x39#8).implemented = .yes),
    (Eq.trans (rfl : decodeBytes 0x39#8 (lowByte addr) (highByte addr) = _) (congrArg Instr.andAbsY (wordOf_high_low addr)))⟩

theorem rlaAbsY (addr : Word) : Statement (.rlaAbsY addr) :=
  ⟨(rfl : (rowOf 0x3B#8).describes .rla 0x3B#8 .absY .absoluteY 3 = true),
    (rfl : (rowOf 0x3B#8).length = 3),
    (rfl : (rowOf 0x3B#8).implemented = .yes),
    (Eq.trans (rfl : decodeBytes 0x3B#8 (lowByte addr) (highByte addr) = _) (congrArg Instr.rlaAbsY (wordOf_high_low addr)))⟩

theorem nopAbsX3C (addr : Word) : Statement (.nopAbsX3C addr) :=
  ⟨(rfl : (rowOf 0x3C#8).describes .nop 0x3C#8 .absX .absoluteX 3 = true),
    (rfl : (rowOf 0x3C#8).length = 3),
    (rfl : (rowOf 0x3C#8).implemented = .yes),
    (Eq.trans (rfl : decodeBytes 0x3C#8 (lowByte addr) (highByte addr) = _) (congrArg Instr.nopAbsX3C (wordOf_high_low addr)))⟩

theorem andAbsX (addr : Word) : Statement (.andAbsX addr) :=
  ⟨(rfl : (rowOf 0x3D#8).describes .and 0x3D#8 .absX .absoluteX 3 = true),
    (rfl : (rowOf 0x3D#8).length = 3),
    (rfl : (rowOf 0x3D#8).implemented = .yes),
    (Eq.trans (rfl : decodeBytes 0x3D#8 (lowByte addr) (highByte addr) = _) (congrArg Instr.andAbsX (wordOf_high_low addr)))⟩

theorem rolAbsX (addr : Word) : Statement (.rolAbsX addr) :=
  ⟨(rfl : (rowOf 0x3E#8).describes .rol 0x3E#8 .absX .absoluteX 3 = true),
    (rfl : (rowOf 0x3E#8).length = 3),
    (rfl : (rowOf 0x3E#8).implemented = .yes),
    (Eq.trans (rfl : decodeBytes 0x3E#8 (lowByte addr) (highByte addr) = _) (congrArg Instr.rolAbsX (wordOf_high_low addr)))⟩

theorem rlaAbsX (addr : Word) : Statement (.rlaAbsX addr) :=
  ⟨(rfl : (rowOf 0x3F#8).describes .rla 0x3F#8 .absX .absoluteX 3 = true),
    (rfl : (rowOf 0x3F#8).length = 3),
    (rfl : (rowOf 0x3F#8).implemented = .yes),
    (Eq.trans (rfl : decodeBytes 0x3F#8 (lowByte addr) (highByte addr) = _) (congrArg Instr.rlaAbsX (wordOf_high_low addr)))⟩

theorem eorIndX (zp : Byte) : Statement (.eorIndX zp) :=
  ⟨(rfl : (rowOf 0x41#8).describes .eor 0x41#8 .indX .indirectX 2 = true),
    (rfl : (rowOf 0x41#8).length = 2),
    (rfl : (rowOf 0x41#8).implemented = .yes),
    (rfl : decodeBytes 0x41#8 zp 0x00#8 = _)⟩

theorem sreIndX (zp : Byte) : Statement (.sreIndX zp) :=
  ⟨(rfl : (rowOf 0x43#8).describes .sre 0x43#8 .indX .indirectX 2 = true),
    (rfl : (rowOf 0x43#8).length = 2),
    (rfl : (rowOf 0x43#8).implemented = .yes),
    (rfl : decodeBytes 0x43#8 zp 0x00#8 = _)⟩

theorem nopZp44 (zp : Byte) : Statement (.nopZp44 zp) :=
  ⟨(rfl : (rowOf 0x44#8).describes .nop 0x44#8 .zp .zeroPage 2 = true),
    (rfl : (rowOf 0x44#8).length = 2),
    (rfl : (rowOf 0x44#8).implemented = .yes),
    (rfl : decodeBytes 0x44#8 zp 0x00#8 = _)⟩

theorem eorZp (zp : Byte) : Statement (.eorZp zp) :=
  ⟨(rfl : (rowOf 0x45#8).describes .eor 0x45#8 .zp .zeroPage 2 = true),
    (rfl : (rowOf 0x45#8).length = 2),
    (rfl : (rowOf 0x45#8).implemented = .yes),
    (rfl : decodeBytes 0x45#8 zp 0x00#8 = _)⟩

theorem lsrZp (zp : Byte) : Statement (.lsrZp zp) :=
  ⟨(rfl : (rowOf 0x46#8).describes .lsr 0x46#8 .zp .zeroPage 2 = true),
    (rfl : (rowOf 0x46#8).length = 2),
    (rfl : (rowOf 0x46#8).implemented = .yes),
    (rfl : decodeBytes 0x46#8 zp 0x00#8 = _)⟩

theorem sreZp (zp : Byte) : Statement (.sreZp zp) :=
  ⟨(rfl : (rowOf 0x47#8).describes .sre 0x47#8 .zp .zeroPage 2 = true),
    (rfl : (rowOf 0x47#8).length = 2),
    (rfl : (rowOf 0x47#8).implemented = .yes),
    (rfl : decodeBytes 0x47#8 zp 0x00#8 = _)⟩

theorem eorImm (imm : Byte) : Statement (.eorImm imm) :=
  ⟨(rfl : (rowOf 0x49#8).describes .eor 0x49#8 .imm .immediate 2 = true),
    (rfl : (rowOf 0x49#8).length = 2),
    (rfl : (rowOf 0x49#8).implemented = .yes),
    (rfl : decodeBytes 0x49#8 imm 0x00#8 = _)⟩

theorem alrImm (imm : Byte) : Statement (.alrImm imm) :=
  ⟨(rfl : (rowOf 0x4B#8).describes .alr 0x4B#8 .imm .immediate 2 = true),
    (rfl : (rowOf 0x4B#8).length = 2),
    (rfl : (rowOf 0x4B#8).implemented = .yes),
    (rfl : decodeBytes 0x4B#8 imm 0x00#8 = _)⟩

theorem jmpAbs (addr : Word) : Statement (.jmpAbs addr) :=
  ⟨(rfl : (rowOf 0x4C#8).describes .jmp 0x4C#8 .abs .noneAddressing 3 = true),
    (rfl : (rowOf 0x4C#8).length = 3),
    (rfl : (rowOf 0x4C#8).implemented = .yes),
    (Eq.trans (rfl : decodeBytes 0x4C#8 (lowByte addr) (highByte addr) = _) (congrArg Instr.jmpAbs (wordOf_high_low addr)))⟩

theorem eorAbs (addr : Word) : Statement (.eorAbs addr) :=
  ⟨(rfl : (rowOf 0x4D#8).describes .eor 0x4D#8 .abs .absolute 3 = true),
    (rfl : (rowOf 0x4D#8).length = 3),
    (rfl : (rowOf 0x4D#8).implemented = .yes),
    (Eq.trans (rfl : decodeBytes 0x4D#8 (lowByte addr) (highByte addr) = _) (congrArg Instr.eorAbs (wordOf_high_low addr)))⟩

theorem lsrAbs (addr : Word) : Statement (.lsrAbs addr) :=
  ⟨(rfl : (rowOf 0x4E#8).describes .lsr 0x4E#8 .abs .absolute 3 = true),
    (rfl : (rowOf 0x4E#8).length = 3),
    (rfl : (rowOf 0x4E#8).implemented = .yes),
    (Eq.trans (rfl : decodeBytes 0x4E#8 (lowByte addr) (highByte addr) = _) (congrArg Instr.lsrAbs (wordOf_high_low addr)))⟩

theorem sreAbs (addr : Word) : Statement (.sreAbs addr) :=
  ⟨(rfl : (rowOf 0x4F#8).describes .sre 0x4F#8 .abs .absolute 3 = true),
    (rfl : (rowOf 0x4F#8).length = 3),
    (rfl : (rowOf 0x4F#8).implemented = .yes),
    (Eq.trans (rfl : decodeBytes 0x4F#8 (lowByte addr) (highByte addr) = _) (congrArg Instr.sreAbs (wordOf_high_low addr)))⟩

theorem bvc (off : Byte) : Statement (.bvc off) :=
  ⟨(rfl : (rowOf 0x50#8).describes .bvc 0x50#8 .rel .noneAddressing 2 = true),
    (rfl : (rowOf 0x50#8).length = 2),
    (rfl : (rowOf 0x50#8).implemented = .yes),
    (rfl : decodeBytes 0x50#8 off 0x00#8 = _)⟩

theorem eorIndY (zp : Byte) : Statement (.eorIndY zp) :=
  ⟨(rfl : (rowOf 0x51#8).describes .eor 0x51#8 .indY .indirectY 2 = true),
    (rfl : (rowOf 0x51#8).length = 2),
    (rfl : (rowOf 0x51#8).implemented = .yes),
    (rfl : decodeBytes 0x51#8 zp 0x00#8 = _)⟩

theorem sreIndY (zp : Byte) : Statement (.sreIndY zp) :=
  ⟨(rfl : (rowOf 0x53#8).describes .sre 0x53#8 .indY .indirectY 2 = true),
    (rfl : (rowOf 0x53#8).length = 2),
    (rfl : (rowOf 0x53#8).implemented = .yes),
    (rfl : decodeBytes 0x53#8 zp 0x00#8 = _)⟩

theorem nopZpX54 (zp : Byte) : Statement (.nopZpX54 zp) :=
  ⟨(rfl : (rowOf 0x54#8).describes .nop 0x54#8 .zpX .zeroPageX 2 = true),
    (rfl : (rowOf 0x54#8).length = 2),
    (rfl : (rowOf 0x54#8).implemented = .yes),
    (rfl : decodeBytes 0x54#8 zp 0x00#8 = _)⟩

theorem eorZpX (zp : Byte) : Statement (.eorZpX zp) :=
  ⟨(rfl : (rowOf 0x55#8).describes .eor 0x55#8 .zpX .zeroPageX 2 = true),
    (rfl : (rowOf 0x55#8).length = 2),
    (rfl : (rowOf 0x55#8).implemented = .yes),
    (rfl : decodeBytes 0x55#8 zp 0x00#8 = _)⟩

theorem lsrZpX (zp : Byte) : Statement (.lsrZpX zp) :=
  ⟨(rfl : (rowOf 0x56#8).describes .lsr 0x56#8 .zpX .zeroPageX 2 = true),
    (rfl : (rowOf 0x56#8).length = 2),
    (rfl : (rowOf 0x56#8).implemented = .yes),
    (rfl : decodeBytes 0x56#8 zp 0x00#8 = _)⟩

theorem sreZpX (zp : Byte) : Statement (.sreZpX zp) :=
  ⟨(rfl : (rowOf 0x57#8).describes .sre 0x57#8 .zpX .zeroPageX 2 = true),
    (rfl : (rowOf 0x57#8).length = 2),
    (rfl : (rowOf 0x57#8).implemented = .yes),
    (rfl : decodeBytes 0x57#8 zp 0x00#8 = _)⟩

theorem eorAbsY (addr : Word) : Statement (.eorAbsY addr) :=
  ⟨(rfl : (rowOf 0x59#8).describes .eor 0x59#8 .absY .absoluteY 3 = true),
    (rfl : (rowOf 0x59#8).length = 3),
    (rfl : (rowOf 0x59#8).implemented = .yes),
    (Eq.trans (rfl : decodeBytes 0x59#8 (lowByte addr) (highByte addr) = _) (congrArg Instr.eorAbsY (wordOf_high_low addr)))⟩

theorem sreAbsY (addr : Word) : Statement (.sreAbsY addr) :=
  ⟨(rfl : (rowOf 0x5B#8).describes .sre 0x5B#8 .absY .absoluteY 3 = true),
    (rfl : (rowOf 0x5B#8).length = 3),
    (rfl : (rowOf 0x5B#8).implemented = .yes),
    (Eq.trans (rfl : decodeBytes 0x5B#8 (lowByte addr) (highByte addr) = _) (congrArg Instr.sreAbsY (wordOf_high_low addr)))⟩

theorem nopAbsX5C (addr : Word) : Statement (.nopAbsX5C addr) :=
  ⟨(rfl : (rowOf 0x5C#8).describes .nop 0x5C#8 .absX .absoluteX 3 = true),
    (rfl : (rowOf 0x5C#8).length = 3),
    (rfl : (rowOf 0x5C#8).implemented = .yes),
    (Eq.trans (rfl : decodeBytes 0x5C#8 (lowByte addr) (highByte addr) = _) (congrArg Instr.nopAbsX5C (wordOf_high_low addr)))⟩

theorem eorAbsX (addr : Word) : Statement (.eorAbsX addr) :=
  ⟨(rfl : (rowOf 0x5D#8).describes .eor 0x5D#8 .absX .absoluteX 3 = true),
    (rfl : (rowOf 0x5D#8).length = 3),
    (rfl : (rowOf 0x5D#8).implemented = .yes),
    (Eq.trans (rfl : decodeBytes 0x5D#8 (lowByte addr) (highByte addr) = _) (congrArg Instr.eorAbsX (wordOf_high_low addr)))⟩

theorem lsrAbsX (addr : Word) : Statement (.lsrAbsX addr) :=
  ⟨(rfl : (rowOf 0x5E#8).describes .lsr 0x5E#8 .absX .absoluteX 3 = true),
    (rfl : (rowOf 0x5E#8).length = 3),
    (rfl : (rowOf 0x5E#8).implemented = .yes),
    (Eq.trans (rfl : decodeBytes 0x5E#8 (lowByte addr) (highByte addr) = _) (congrArg Instr.lsrAbsX (wordOf_high_low addr)))⟩

theorem sreAbsX (addr : Word) : Statement (.sreAbsX addr) :=
  ⟨(rfl : (rowOf 0x5F#8).describes .sre 0x5F#8 .absX .absoluteX 3 = true),
    (rfl : (rowOf 0x5F#8).length = 3),
    (rfl : (rowOf 0x5F#8).implemented = .yes),
    (Eq.trans (rfl : decodeBytes 0x5F#8 (lowByte addr) (highByte addr) = _) (congrArg Instr.sreAbsX (wordOf_high_low addr)))⟩

theorem adcIndX (zp : Byte) : Statement (.adcIndX zp) :=
  ⟨(rfl : (rowOf 0x61#8).describes .adc 0x61#8 .indX .indirectX 2 = true),
    (rfl : (rowOf 0x61#8).length = 2),
    (rfl : (rowOf 0x61#8).implemented = .yes),
    (rfl : decodeBytes 0x61#8 zp 0x00#8 = _)⟩

theorem rraIndX (zp : Byte) : Statement (.rraIndX zp) :=
  ⟨(rfl : (rowOf 0x63#8).describes .rra 0x63#8 .indX .indirectX 2 = true),
    (rfl : (rowOf 0x63#8).length = 2),
    (rfl : (rowOf 0x63#8).implemented = .yes),
    (rfl : decodeBytes 0x63#8 zp 0x00#8 = _)⟩

theorem nopZp64 (zp : Byte) : Statement (.nopZp64 zp) :=
  ⟨(rfl : (rowOf 0x64#8).describes .nop 0x64#8 .zp .zeroPage 2 = true),
    (rfl : (rowOf 0x64#8).length = 2),
    (rfl : (rowOf 0x64#8).implemented = .yes),
    (rfl : decodeBytes 0x64#8 zp 0x00#8 = _)⟩

theorem adcZp (zp : Byte) : Statement (.adcZp zp) :=
  ⟨(rfl : (rowOf 0x65#8).describes .adc 0x65#8 .zp .zeroPage 2 = true),
    (rfl : (rowOf 0x65#8).length = 2),
    (rfl : (rowOf 0x65#8).implemented = .yes),
    (rfl : decodeBytes 0x65#8 zp 0x00#8 = _)⟩

theorem rorZp (zp : Byte) : Statement (.rorZp zp) :=
  ⟨(rfl : (rowOf 0x66#8).describes .ror 0x66#8 .zp .zeroPage 2 = true),
    (rfl : (rowOf 0x66#8).length = 2),
    (rfl : (rowOf 0x66#8).implemented = .yes),
    (rfl : decodeBytes 0x66#8 zp 0x00#8 = _)⟩

theorem rraZp (zp : Byte) : Statement (.rraZp zp) :=
  ⟨(rfl : (rowOf 0x67#8).describes .rra 0x67#8 .zp .zeroPage 2 = true),
    (rfl : (rowOf 0x67#8).length = 2),
    (rfl : (rowOf 0x67#8).implemented = .yes),
    (rfl : decodeBytes 0x67#8 zp 0x00#8 = _)⟩

theorem adcImm (imm : Byte) : Statement (.adcImm imm) :=
  ⟨(rfl : (rowOf 0x69#8).describes .adc 0x69#8 .imm .immediate 2 = true),
    (rfl : (rowOf 0x69#8).length = 2),
    (rfl : (rowOf 0x69#8).implemented = .yes),
    (rfl : decodeBytes 0x69#8 imm 0x00#8 = _)⟩

theorem arrImm (imm : Byte) : Statement (.arrImm imm) :=
  ⟨(rfl : (rowOf 0x6B#8).describes .arr 0x6B#8 .imm .immediate 2 = true),
    (rfl : (rowOf 0x6B#8).length = 2),
    (rfl : (rowOf 0x6B#8).implemented = .yes),
    (rfl : decodeBytes 0x6B#8 imm 0x00#8 = _)⟩

theorem jmpInd (ptr : Word) : Statement (.jmpInd ptr) :=
  ⟨(rfl : (rowOf 0x6C#8).describes .jmp 0x6C#8 .ind .noneAddressing 3 = true),
    (rfl : (rowOf 0x6C#8).length = 3),
    (rfl : (rowOf 0x6C#8).implemented = .yes),
    (Eq.trans (rfl : decodeBytes 0x6C#8 (lowByte ptr) (highByte ptr) = _) (congrArg Instr.jmpInd (wordOf_high_low ptr)))⟩

theorem adcAbs (addr : Word) : Statement (.adcAbs addr) :=
  ⟨(rfl : (rowOf 0x6D#8).describes .adc 0x6D#8 .abs .absolute 3 = true),
    (rfl : (rowOf 0x6D#8).length = 3),
    (rfl : (rowOf 0x6D#8).implemented = .yes),
    (Eq.trans (rfl : decodeBytes 0x6D#8 (lowByte addr) (highByte addr) = _) (congrArg Instr.adcAbs (wordOf_high_low addr)))⟩

theorem rorAbs (addr : Word) : Statement (.rorAbs addr) :=
  ⟨(rfl : (rowOf 0x6E#8).describes .ror 0x6E#8 .abs .absolute 3 = true),
    (rfl : (rowOf 0x6E#8).length = 3),
    (rfl : (rowOf 0x6E#8).implemented = .yes),
    (Eq.trans (rfl : decodeBytes 0x6E#8 (lowByte addr) (highByte addr) = _) (congrArg Instr.rorAbs (wordOf_high_low addr)))⟩

theorem rraAbs (addr : Word) : Statement (.rraAbs addr) :=
  ⟨(rfl : (rowOf 0x6F#8).describes .rra 0x6F#8 .abs .absolute 3 = true),
    (rfl : (rowOf 0x6F#8).length = 3),
    (rfl : (rowOf 0x6F#8).implemented = .yes),
    (Eq.trans (rfl : decodeBytes 0x6F#8 (lowByte addr) (highByte addr) = _) (congrArg Instr.rraAbs (wordOf_high_low addr)))⟩

theorem bvs (off : Byte) : Statement (.bvs off) :=
  ⟨(rfl : (rowOf 0x70#8).describes .bvs 0x70#8 .rel .noneAddressing 2 = true),
    (rfl : (rowOf 0x70#8).length = 2),
    (rfl : (rowOf 0x70#8).implemented = .yes),
    (rfl : decodeBytes 0x70#8 off 0x00#8 = _)⟩

theorem adcIndY (zp : Byte) : Statement (.adcIndY zp) :=
  ⟨(rfl : (rowOf 0x71#8).describes .adc 0x71#8 .indY .indirectY 2 = true),
    (rfl : (rowOf 0x71#8).length = 2),
    (rfl : (rowOf 0x71#8).implemented = .yes),
    (rfl : decodeBytes 0x71#8 zp 0x00#8 = _)⟩

theorem rraIndY (zp : Byte) : Statement (.rraIndY zp) :=
  ⟨(rfl : (rowOf 0x73#8).describes .rra 0x73#8 .indY .indirectY 2 = true),
    (rfl : (rowOf 0x73#8).length = 2),
    (rfl : (rowOf 0x73#8).implemented = .yes),
    (rfl : decodeBytes 0x73#8 zp 0x00#8 = _)⟩

theorem nopZpX74 (zp : Byte) : Statement (.nopZpX74 zp) :=
  ⟨(rfl : (rowOf 0x74#8).describes .nop 0x74#8 .zpX .zeroPageX 2 = true),
    (rfl : (rowOf 0x74#8).length = 2),
    (rfl : (rowOf 0x74#8).implemented = .yes),
    (rfl : decodeBytes 0x74#8 zp 0x00#8 = _)⟩

theorem adcZpX (zp : Byte) : Statement (.adcZpX zp) :=
  ⟨(rfl : (rowOf 0x75#8).describes .adc 0x75#8 .zpX .zeroPageX 2 = true),
    (rfl : (rowOf 0x75#8).length = 2),
    (rfl : (rowOf 0x75#8).implemented = .yes),
    (rfl : decodeBytes 0x75#8 zp 0x00#8 = _)⟩

theorem rorZpX (zp : Byte) : Statement (.rorZpX zp) :=
  ⟨(rfl : (rowOf 0x76#8).describes .ror 0x76#8 .zpX .zeroPageX 2 = true),
    (rfl : (rowOf 0x76#8).length = 2),
    (rfl : (rowOf 0x76#8).implemented = .yes),
    (rfl : decodeBytes 0x76#8 zp 0x00#8 = _)⟩

theorem rraZpX (zp : Byte) : Statement (.rraZpX zp) :=
  ⟨(rfl : (rowOf 0x77#8).describes .rra 0x77#8 .zpX .zeroPageX 2 = true),
    (rfl : (rowOf 0x77#8).length = 2),
    (rfl : (rowOf 0x77#8).implemented = .yes),
    (rfl : decodeBytes 0x77#8 zp 0x00#8 = _)⟩

theorem adcAbsY (addr : Word) : Statement (.adcAbsY addr) :=
  ⟨(rfl : (rowOf 0x79#8).describes .adc 0x79#8 .absY .absoluteY 3 = true),
    (rfl : (rowOf 0x79#8).length = 3),
    (rfl : (rowOf 0x79#8).implemented = .yes),
    (Eq.trans (rfl : decodeBytes 0x79#8 (lowByte addr) (highByte addr) = _) (congrArg Instr.adcAbsY (wordOf_high_low addr)))⟩

theorem rraAbsY (addr : Word) : Statement (.rraAbsY addr) :=
  ⟨(rfl : (rowOf 0x7B#8).describes .rra 0x7B#8 .absY .absoluteY 3 = true),
    (rfl : (rowOf 0x7B#8).length = 3),
    (rfl : (rowOf 0x7B#8).implemented = .yes),
    (Eq.trans (rfl : decodeBytes 0x7B#8 (lowByte addr) (highByte addr) = _) (congrArg Instr.rraAbsY (wordOf_high_low addr)))⟩

theorem nopAbsX7C (addr : Word) : Statement (.nopAbsX7C addr) :=
  ⟨(rfl : (rowOf 0x7C#8).describes .nop 0x7C#8 .absX .absoluteX 3 = true),
    (rfl : (rowOf 0x7C#8).length = 3),
    (rfl : (rowOf 0x7C#8).implemented = .yes),
    (Eq.trans (rfl : decodeBytes 0x7C#8 (lowByte addr) (highByte addr) = _) (congrArg Instr.nopAbsX7C (wordOf_high_low addr)))⟩

theorem adcAbsX (addr : Word) : Statement (.adcAbsX addr) :=
  ⟨(rfl : (rowOf 0x7D#8).describes .adc 0x7D#8 .absX .absoluteX 3 = true),
    (rfl : (rowOf 0x7D#8).length = 3),
    (rfl : (rowOf 0x7D#8).implemented = .yes),
    (Eq.trans (rfl : decodeBytes 0x7D#8 (lowByte addr) (highByte addr) = _) (congrArg Instr.adcAbsX (wordOf_high_low addr)))⟩

theorem rorAbsX (addr : Word) : Statement (.rorAbsX addr) :=
  ⟨(rfl : (rowOf 0x7E#8).describes .ror 0x7E#8 .absX .absoluteX 3 = true),
    (rfl : (rowOf 0x7E#8).length = 3),
    (rfl : (rowOf 0x7E#8).implemented = .yes),
    (Eq.trans (rfl : decodeBytes 0x7E#8 (lowByte addr) (highByte addr) = _) (congrArg Instr.rorAbsX (wordOf_high_low addr)))⟩

theorem rraAbsX (addr : Word) : Statement (.rraAbsX addr) :=
  ⟨(rfl : (rowOf 0x7F#8).describes .rra 0x7F#8 .absX .absoluteX 3 = true),
    (rfl : (rowOf 0x7F#8).length = 3),
    (rfl : (rowOf 0x7F#8).implemented = .yes),
    (Eq.trans (rfl : decodeBytes 0x7F#8 (lowByte addr) (highByte addr) = _) (congrArg Instr.rraAbsX (wordOf_high_low addr)))⟩

theorem nopImm80 (imm : Byte) : Statement (.nopImm80 imm) :=
  ⟨(rfl : (rowOf 0x80#8).describes .nop 0x80#8 .imm .immediate 2 = true),
    (rfl : (rowOf 0x80#8).length = 2),
    (rfl : (rowOf 0x80#8).implemented = .yes),
    (rfl : decodeBytes 0x80#8 imm 0x00#8 = _)⟩

theorem staIndX (zp : Byte) : Statement (.staIndX zp) :=
  ⟨(rfl : (rowOf 0x81#8).describes .sta 0x81#8 .indX .indirectX 2 = true),
    (rfl : (rowOf 0x81#8).length = 2),
    (rfl : (rowOf 0x81#8).implemented = .yes),
    (rfl : decodeBytes 0x81#8 zp 0x00#8 = _)⟩

theorem nopImm82 (imm : Byte) : Statement (.nopImm82 imm) :=
  ⟨(rfl : (rowOf 0x82#8).describes .nop 0x82#8 .imm .immediate 2 = true),
    (rfl : (rowOf 0x82#8).length = 2),
    (rfl : (rowOf 0x82#8).implemented = .yes),
    (rfl : decodeBytes 0x82#8 imm 0x00#8 = _)⟩

theorem saxIndX (zp : Byte) : Statement (.saxIndX zp) :=
  ⟨(rfl : (rowOf 0x83#8).describes .sax 0x83#8 .indX .indirectX 2 = true),
    (rfl : (rowOf 0x83#8).length = 2),
    (rfl : (rowOf 0x83#8).implemented = .yes),
    (rfl : decodeBytes 0x83#8 zp 0x00#8 = _)⟩

theorem styZp (zp : Byte) : Statement (.styZp zp) :=
  ⟨(rfl : (rowOf 0x84#8).describes .sty 0x84#8 .zp .zeroPage 2 = true),
    (rfl : (rowOf 0x84#8).length = 2),
    (rfl : (rowOf 0x84#8).implemented = .yes),
    (rfl : decodeBytes 0x84#8 zp 0x00#8 = _)⟩

theorem staZp (zp : Byte) : Statement (.staZp zp) :=
  ⟨(rfl : (rowOf 0x85#8).describes .sta 0x85#8 .zp .zeroPage 2 = true),
    (rfl : (rowOf 0x85#8).length = 2),
    (rfl : (rowOf 0x85#8).implemented = .yes),
    (rfl : decodeBytes 0x85#8 zp 0x00#8 = _)⟩

theorem stxZp (zp : Byte) : Statement (.stxZp zp) :=
  ⟨(rfl : (rowOf 0x86#8).describes .stx 0x86#8 .zp .zeroPage 2 = true),
    (rfl : (rowOf 0x86#8).length = 2),
    (rfl : (rowOf 0x86#8).implemented = .yes),
    (rfl : decodeBytes 0x86#8 zp 0x00#8 = _)⟩

theorem saxZp (zp : Byte) : Statement (.saxZp zp) :=
  ⟨(rfl : (rowOf 0x87#8).describes .sax 0x87#8 .zp .zeroPage 2 = true),
    (rfl : (rowOf 0x87#8).length = 2),
    (rfl : (rowOf 0x87#8).implemented = .yes),
    (rfl : decodeBytes 0x87#8 zp 0x00#8 = _)⟩

theorem nopImm89 (imm : Byte) : Statement (.nopImm89 imm) :=
  ⟨(rfl : (rowOf 0x89#8).describes .nop 0x89#8 .imm .immediate 2 = true),
    (rfl : (rowOf 0x89#8).length = 2),
    (rfl : (rowOf 0x89#8).implemented = .yes),
    (rfl : decodeBytes 0x89#8 imm 0x00#8 = _)⟩

theorem xaaImm (imm : Byte) : Statement (.xaaImm imm) :=
  ⟨(rfl : (rowOf 0x8B#8).describes .xaa 0x8B#8 .imm .immediate 2 = true),
    (rfl : (rowOf 0x8B#8).length = 2),
    (rfl : (rowOf 0x8B#8).implemented = .policy),
    (rfl : decodeBytes 0x8B#8 imm 0x00#8 = _)⟩

theorem styAbs (addr : Word) : Statement (.styAbs addr) :=
  ⟨(rfl : (rowOf 0x8C#8).describes .sty 0x8C#8 .abs .absolute 3 = true),
    (rfl : (rowOf 0x8C#8).length = 3),
    (rfl : (rowOf 0x8C#8).implemented = .yes),
    (Eq.trans (rfl : decodeBytes 0x8C#8 (lowByte addr) (highByte addr) = _) (congrArg Instr.styAbs (wordOf_high_low addr)))⟩

theorem staAbs (addr : Word) : Statement (.staAbs addr) :=
  ⟨(rfl : (rowOf 0x8D#8).describes .sta 0x8D#8 .abs .absolute 3 = true),
    (rfl : (rowOf 0x8D#8).length = 3),
    (rfl : (rowOf 0x8D#8).implemented = .yes),
    (Eq.trans (rfl : decodeBytes 0x8D#8 (lowByte addr) (highByte addr) = _) (congrArg Instr.staAbs (wordOf_high_low addr)))⟩

theorem stxAbs (addr : Word) : Statement (.stxAbs addr) :=
  ⟨(rfl : (rowOf 0x8E#8).describes .stx 0x8E#8 .abs .absolute 3 = true),
    (rfl : (rowOf 0x8E#8).length = 3),
    (rfl : (rowOf 0x8E#8).implemented = .yes),
    (Eq.trans (rfl : decodeBytes 0x8E#8 (lowByte addr) (highByte addr) = _) (congrArg Instr.stxAbs (wordOf_high_low addr)))⟩

theorem saxAbs (addr : Word) : Statement (.saxAbs addr) :=
  ⟨(rfl : (rowOf 0x8F#8).describes .sax 0x8F#8 .abs .absolute 3 = true),
    (rfl : (rowOf 0x8F#8).length = 3),
    (rfl : (rowOf 0x8F#8).implemented = .yes),
    (Eq.trans (rfl : decodeBytes 0x8F#8 (lowByte addr) (highByte addr) = _) (congrArg Instr.saxAbs (wordOf_high_low addr)))⟩

theorem bcc (off : Byte) : Statement (.bcc off) :=
  ⟨(rfl : (rowOf 0x90#8).describes .bcc 0x90#8 .rel .noneAddressing 2 = true),
    (rfl : (rowOf 0x90#8).length = 2),
    (rfl : (rowOf 0x90#8).implemented = .yes),
    (rfl : decodeBytes 0x90#8 off 0x00#8 = _)⟩

theorem staIndY (zp : Byte) : Statement (.staIndY zp) :=
  ⟨(rfl : (rowOf 0x91#8).describes .sta 0x91#8 .indY .indirectY 2 = true),
    (rfl : (rowOf 0x91#8).length = 2),
    (rfl : (rowOf 0x91#8).implemented = .yes),
    (rfl : decodeBytes 0x91#8 zp 0x00#8 = _)⟩

theorem ahxIndY (zp : Byte) : Statement (.ahxIndY zp) :=
  ⟨(rfl : (rowOf 0x93#8).describes .ahx 0x93#8 .indY .indirectY 2 = true),
    (rfl : (rowOf 0x93#8).length = 2),
    (rfl : (rowOf 0x93#8).implemented = .policy),
    (rfl : decodeBytes 0x93#8 zp 0x00#8 = _)⟩

theorem styZpX (zp : Byte) : Statement (.styZpX zp) :=
  ⟨(rfl : (rowOf 0x94#8).describes .sty 0x94#8 .zpX .zeroPageX 2 = true),
    (rfl : (rowOf 0x94#8).length = 2),
    (rfl : (rowOf 0x94#8).implemented = .yes),
    (rfl : decodeBytes 0x94#8 zp 0x00#8 = _)⟩

theorem staZpX (zp : Byte) : Statement (.staZpX zp) :=
  ⟨(rfl : (rowOf 0x95#8).describes .sta 0x95#8 .zpX .zeroPageX 2 = true),
    (rfl : (rowOf 0x95#8).length = 2),
    (rfl : (rowOf 0x95#8).implemented = .yes),
    (rfl : decodeBytes 0x95#8 zp 0x00#8 = _)⟩

theorem stxZpY (zp : Byte) : Statement (.stxZpY zp) :=
  ⟨(rfl : (rowOf 0x96#8).describes .stx 0x96#8 .zpY .zeroPageY 2 = true),
    (rfl : (rowOf 0x96#8).length = 2),
    (rfl : (rowOf 0x96#8).implemented = .yes),
    (rfl : decodeBytes 0x96#8 zp 0x00#8 = _)⟩

theorem saxZpY (zp : Byte) : Statement (.saxZpY zp) :=
  ⟨(rfl : (rowOf 0x97#8).describes .sax 0x97#8 .zpY .zeroPageY 2 = true),
    (rfl : (rowOf 0x97#8).length = 2),
    (rfl : (rowOf 0x97#8).implemented = .yes),
    (rfl : decodeBytes 0x97#8 zp 0x00#8 = _)⟩

theorem staAbsY (addr : Word) : Statement (.staAbsY addr) :=
  ⟨(rfl : (rowOf 0x99#8).describes .sta 0x99#8 .absY .absoluteY 3 = true),
    (rfl : (rowOf 0x99#8).length = 3),
    (rfl : (rowOf 0x99#8).implemented = .yes),
    (Eq.trans (rfl : decodeBytes 0x99#8 (lowByte addr) (highByte addr) = _) (congrArg Instr.staAbsY (wordOf_high_low addr)))⟩

theorem tasAbsY (addr : Word) : Statement (.tasAbsY addr) :=
  ⟨(rfl : (rowOf 0x9B#8).describes .tas 0x9B#8 .absY .absoluteY 3 = true),
    (rfl : (rowOf 0x9B#8).length = 3),
    (rfl : (rowOf 0x9B#8).implemented = .policy),
    (Eq.trans (rfl : decodeBytes 0x9B#8 (lowByte addr) (highByte addr) = _) (congrArg Instr.tasAbsY (wordOf_high_low addr)))⟩

theorem shyAbsX (addr : Word) : Statement (.shyAbsX addr) :=
  ⟨(rfl : (rowOf 0x9C#8).describes .shy 0x9C#8 .absX .absoluteX 3 = true),
    (rfl : (rowOf 0x9C#8).length = 3),
    (rfl : (rowOf 0x9C#8).implemented = .policy),
    (Eq.trans (rfl : decodeBytes 0x9C#8 (lowByte addr) (highByte addr) = _) (congrArg Instr.shyAbsX (wordOf_high_low addr)))⟩

theorem staAbsX (addr : Word) : Statement (.staAbsX addr) :=
  ⟨(rfl : (rowOf 0x9D#8).describes .sta 0x9D#8 .absX .absoluteX 3 = true),
    (rfl : (rowOf 0x9D#8).length = 3),
    (rfl : (rowOf 0x9D#8).implemented = .yes),
    (Eq.trans (rfl : decodeBytes 0x9D#8 (lowByte addr) (highByte addr) = _) (congrArg Instr.staAbsX (wordOf_high_low addr)))⟩

theorem shxAbsY (addr : Word) : Statement (.shxAbsY addr) :=
  ⟨(rfl : (rowOf 0x9E#8).describes .shx 0x9E#8 .absY .absoluteY 3 = true),
    (rfl : (rowOf 0x9E#8).length = 3),
    (rfl : (rowOf 0x9E#8).implemented = .policy),
    (Eq.trans (rfl : decodeBytes 0x9E#8 (lowByte addr) (highByte addr) = _) (congrArg Instr.shxAbsY (wordOf_high_low addr)))⟩

theorem ahxAbsY (addr : Word) : Statement (.ahxAbsY addr) :=
  ⟨(rfl : (rowOf 0x9F#8).describes .ahx 0x9F#8 .absY .absoluteY 3 = true),
    (rfl : (rowOf 0x9F#8).length = 3),
    (rfl : (rowOf 0x9F#8).implemented = .policy),
    (Eq.trans (rfl : decodeBytes 0x9F#8 (lowByte addr) (highByte addr) = _) (congrArg Instr.ahxAbsY (wordOf_high_low addr)))⟩

theorem ldyImm (imm : Byte) : Statement (.ldyImm imm) :=
  ⟨(rfl : (rowOf 0xA0#8).describes .ldy 0xA0#8 .imm .immediate 2 = true),
    (rfl : (rowOf 0xA0#8).length = 2),
    (rfl : (rowOf 0xA0#8).implemented = .yes),
    (rfl : decodeBytes 0xA0#8 imm 0x00#8 = _)⟩

theorem ldaIndX (zp : Byte) : Statement (.ldaIndX zp) :=
  ⟨(rfl : (rowOf 0xA1#8).describes .lda 0xA1#8 .indX .indirectX 2 = true),
    (rfl : (rowOf 0xA1#8).length = 2),
    (rfl : (rowOf 0xA1#8).implemented = .yes),
    (rfl : decodeBytes 0xA1#8 zp 0x00#8 = _)⟩

theorem ldxImm (imm : Byte) : Statement (.ldxImm imm) :=
  ⟨(rfl : (rowOf 0xA2#8).describes .ldx 0xA2#8 .imm .immediate 2 = true),
    (rfl : (rowOf 0xA2#8).length = 2),
    (rfl : (rowOf 0xA2#8).implemented = .yes),
    (rfl : decodeBytes 0xA2#8 imm 0x00#8 = _)⟩

theorem laxIndX (zp : Byte) : Statement (.laxIndX zp) :=
  ⟨(rfl : (rowOf 0xA3#8).describes .lax 0xA3#8 .indX .indirectX 2 = true),
    (rfl : (rowOf 0xA3#8).length = 2),
    (rfl : (rowOf 0xA3#8).implemented = .yes),
    (rfl : decodeBytes 0xA3#8 zp 0x00#8 = _)⟩

theorem ldyZp (zp : Byte) : Statement (.ldyZp zp) :=
  ⟨(rfl : (rowOf 0xA4#8).describes .ldy 0xA4#8 .zp .zeroPage 2 = true),
    (rfl : (rowOf 0xA4#8).length = 2),
    (rfl : (rowOf 0xA4#8).implemented = .yes),
    (rfl : decodeBytes 0xA4#8 zp 0x00#8 = _)⟩

theorem ldaZp (zp : Byte) : Statement (.ldaZp zp) :=
  ⟨(rfl : (rowOf 0xA5#8).describes .lda 0xA5#8 .zp .zeroPage 2 = true),
    (rfl : (rowOf 0xA5#8).length = 2),
    (rfl : (rowOf 0xA5#8).implemented = .yes),
    (rfl : decodeBytes 0xA5#8 zp 0x00#8 = _)⟩

theorem ldxZp (zp : Byte) : Statement (.ldxZp zp) :=
  ⟨(rfl : (rowOf 0xA6#8).describes .ldx 0xA6#8 .zp .zeroPage 2 = true),
    (rfl : (rowOf 0xA6#8).length = 2),
    (rfl : (rowOf 0xA6#8).implemented = .yes),
    (rfl : decodeBytes 0xA6#8 zp 0x00#8 = _)⟩

theorem laxZp (zp : Byte) : Statement (.laxZp zp) :=
  ⟨(rfl : (rowOf 0xA7#8).describes .lax 0xA7#8 .zp .zeroPage 2 = true),
    (rfl : (rowOf 0xA7#8).length = 2),
    (rfl : (rowOf 0xA7#8).implemented = .yes),
    (rfl : decodeBytes 0xA7#8 zp 0x00#8 = _)⟩

theorem ldaImm (imm : Byte) : Statement (.ldaImm imm) :=
  ⟨(rfl : (rowOf 0xA9#8).describes .lda 0xA9#8 .imm .immediate 2 = true),
    (rfl : (rowOf 0xA9#8).length = 2),
    (rfl : (rowOf 0xA9#8).implemented = .yes),
    (rfl : decodeBytes 0xA9#8 imm 0x00#8 = _)⟩

theorem lxaImm (imm : Byte) : Statement (.lxaImm imm) :=
  ⟨(rfl : (rowOf 0xAB#8).describes .lxa 0xAB#8 .imm .immediate 2 = true),
    (rfl : (rowOf 0xAB#8).length = 2),
    (rfl : (rowOf 0xAB#8).implemented = .policy),
    (rfl : decodeBytes 0xAB#8 imm 0x00#8 = _)⟩

theorem ldyAbs (addr : Word) : Statement (.ldyAbs addr) :=
  ⟨(rfl : (rowOf 0xAC#8).describes .ldy 0xAC#8 .abs .absolute 3 = true),
    (rfl : (rowOf 0xAC#8).length = 3),
    (rfl : (rowOf 0xAC#8).implemented = .yes),
    (Eq.trans (rfl : decodeBytes 0xAC#8 (lowByte addr) (highByte addr) = _) (congrArg Instr.ldyAbs (wordOf_high_low addr)))⟩

theorem ldaAbs (addr : Word) : Statement (.ldaAbs addr) :=
  ⟨(rfl : (rowOf 0xAD#8).describes .lda 0xAD#8 .abs .absolute 3 = true),
    (rfl : (rowOf 0xAD#8).length = 3),
    (rfl : (rowOf 0xAD#8).implemented = .yes),
    (Eq.trans (rfl : decodeBytes 0xAD#8 (lowByte addr) (highByte addr) = _) (congrArg Instr.ldaAbs (wordOf_high_low addr)))⟩

theorem ldxAbs (addr : Word) : Statement (.ldxAbs addr) :=
  ⟨(rfl : (rowOf 0xAE#8).describes .ldx 0xAE#8 .abs .absolute 3 = true),
    (rfl : (rowOf 0xAE#8).length = 3),
    (rfl : (rowOf 0xAE#8).implemented = .yes),
    (Eq.trans (rfl : decodeBytes 0xAE#8 (lowByte addr) (highByte addr) = _) (congrArg Instr.ldxAbs (wordOf_high_low addr)))⟩

theorem laxAbs (addr : Word) : Statement (.laxAbs addr) :=
  ⟨(rfl : (rowOf 0xAF#8).describes .lax 0xAF#8 .abs .absolute 3 = true),
    (rfl : (rowOf 0xAF#8).length = 3),
    (rfl : (rowOf 0xAF#8).implemented = .yes),
    (Eq.trans (rfl : decodeBytes 0xAF#8 (lowByte addr) (highByte addr) = _) (congrArg Instr.laxAbs (wordOf_high_low addr)))⟩

theorem bcs (off : Byte) : Statement (.bcs off) :=
  ⟨(rfl : (rowOf 0xB0#8).describes .bcs 0xB0#8 .rel .noneAddressing 2 = true),
    (rfl : (rowOf 0xB0#8).length = 2),
    (rfl : (rowOf 0xB0#8).implemented = .yes),
    (rfl : decodeBytes 0xB0#8 off 0x00#8 = _)⟩

theorem ldaIndY (zp : Byte) : Statement (.ldaIndY zp) :=
  ⟨(rfl : (rowOf 0xB1#8).describes .lda 0xB1#8 .indY .indirectY 2 = true),
    (rfl : (rowOf 0xB1#8).length = 2),
    (rfl : (rowOf 0xB1#8).implemented = .yes),
    (rfl : decodeBytes 0xB1#8 zp 0x00#8 = _)⟩

theorem laxIndY (zp : Byte) : Statement (.laxIndY zp) :=
  ⟨(rfl : (rowOf 0xB3#8).describes .lax 0xB3#8 .indY .indirectY 2 = true),
    (rfl : (rowOf 0xB3#8).length = 2),
    (rfl : (rowOf 0xB3#8).implemented = .yes),
    (rfl : decodeBytes 0xB3#8 zp 0x00#8 = _)⟩

theorem ldyZpX (zp : Byte) : Statement (.ldyZpX zp) :=
  ⟨(rfl : (rowOf 0xB4#8).describes .ldy 0xB4#8 .zpX .zeroPageX 2 = true),
    (rfl : (rowOf 0xB4#8).length = 2),
    (rfl : (rowOf 0xB4#8).implemented = .yes),
    (rfl : decodeBytes 0xB4#8 zp 0x00#8 = _)⟩

theorem ldaZpX (zp : Byte) : Statement (.ldaZpX zp) :=
  ⟨(rfl : (rowOf 0xB5#8).describes .lda 0xB5#8 .zpX .zeroPageX 2 = true),
    (rfl : (rowOf 0xB5#8).length = 2),
    (rfl : (rowOf 0xB5#8).implemented = .yes),
    (rfl : decodeBytes 0xB5#8 zp 0x00#8 = _)⟩

theorem ldxZpY (zp : Byte) : Statement (.ldxZpY zp) :=
  ⟨(rfl : (rowOf 0xB6#8).describes .ldx 0xB6#8 .zpY .zeroPageY 2 = true),
    (rfl : (rowOf 0xB6#8).length = 2),
    (rfl : (rowOf 0xB6#8).implemented = .yes),
    (rfl : decodeBytes 0xB6#8 zp 0x00#8 = _)⟩

theorem laxZpY (zp : Byte) : Statement (.laxZpY zp) :=
  ⟨(rfl : (rowOf 0xB7#8).describes .lax 0xB7#8 .zpY .zeroPageY 2 = true),
    (rfl : (rowOf 0xB7#8).length = 2),
    (rfl : (rowOf 0xB7#8).implemented = .yes),
    (rfl : decodeBytes 0xB7#8 zp 0x00#8 = _)⟩

theorem ldaAbsY (addr : Word) : Statement (.ldaAbsY addr) :=
  ⟨(rfl : (rowOf 0xB9#8).describes .lda 0xB9#8 .absY .absoluteY 3 = true),
    (rfl : (rowOf 0xB9#8).length = 3),
    (rfl : (rowOf 0xB9#8).implemented = .yes),
    (Eq.trans (rfl : decodeBytes 0xB9#8 (lowByte addr) (highByte addr) = _) (congrArg Instr.ldaAbsY (wordOf_high_low addr)))⟩

theorem lasAbsY (addr : Word) : Statement (.lasAbsY addr) :=
  ⟨(rfl : (rowOf 0xBB#8).describes .las 0xBB#8 .absY .absoluteY 3 = true),
    (rfl : (rowOf 0xBB#8).length = 3),
    (rfl : (rowOf 0xBB#8).implemented = .policy),
    (Eq.trans (rfl : decodeBytes 0xBB#8 (lowByte addr) (highByte addr) = _) (congrArg Instr.lasAbsY (wordOf_high_low addr)))⟩

theorem ldyAbsX (addr : Word) : Statement (.ldyAbsX addr) :=
  ⟨(rfl : (rowOf 0xBC#8).describes .ldy 0xBC#8 .absX .absoluteX 3 = true),
    (rfl : (rowOf 0xBC#8).length = 3),
    (rfl : (rowOf 0xBC#8).implemented = .yes),
    (Eq.trans (rfl : decodeBytes 0xBC#8 (lowByte addr) (highByte addr) = _) (congrArg Instr.ldyAbsX (wordOf_high_low addr)))⟩

theorem ldaAbsX (addr : Word) : Statement (.ldaAbsX addr) :=
  ⟨(rfl : (rowOf 0xBD#8).describes .lda 0xBD#8 .absX .absoluteX 3 = true),
    (rfl : (rowOf 0xBD#8).length = 3),
    (rfl : (rowOf 0xBD#8).implemented = .yes),
    (Eq.trans (rfl : decodeBytes 0xBD#8 (lowByte addr) (highByte addr) = _) (congrArg Instr.ldaAbsX (wordOf_high_low addr)))⟩

theorem ldxAbsY (addr : Word) : Statement (.ldxAbsY addr) :=
  ⟨(rfl : (rowOf 0xBE#8).describes .ldx 0xBE#8 .absY .absoluteY 3 = true),
    (rfl : (rowOf 0xBE#8).length = 3),
    (rfl : (rowOf 0xBE#8).implemented = .yes),
    (Eq.trans (rfl : decodeBytes 0xBE#8 (lowByte addr) (highByte addr) = _) (congrArg Instr.ldxAbsY (wordOf_high_low addr)))⟩

theorem laxAbsY (addr : Word) : Statement (.laxAbsY addr) :=
  ⟨(rfl : (rowOf 0xBF#8).describes .lax 0xBF#8 .absY .absoluteY 3 = true),
    (rfl : (rowOf 0xBF#8).length = 3),
    (rfl : (rowOf 0xBF#8).implemented = .yes),
    (Eq.trans (rfl : decodeBytes 0xBF#8 (lowByte addr) (highByte addr) = _) (congrArg Instr.laxAbsY (wordOf_high_low addr)))⟩

theorem cpyImm (imm : Byte) : Statement (.cpyImm imm) :=
  ⟨(rfl : (rowOf 0xC0#8).describes .cpy 0xC0#8 .imm .immediate 2 = true),
    (rfl : (rowOf 0xC0#8).length = 2),
    (rfl : (rowOf 0xC0#8).implemented = .yes),
    (rfl : decodeBytes 0xC0#8 imm 0x00#8 = _)⟩

theorem cmpIndX (zp : Byte) : Statement (.cmpIndX zp) :=
  ⟨(rfl : (rowOf 0xC1#8).describes .cmp 0xC1#8 .indX .indirectX 2 = true),
    (rfl : (rowOf 0xC1#8).length = 2),
    (rfl : (rowOf 0xC1#8).implemented = .yes),
    (rfl : decodeBytes 0xC1#8 zp 0x00#8 = _)⟩

theorem nopImmC2 (imm : Byte) : Statement (.nopImmC2 imm) :=
  ⟨(rfl : (rowOf 0xC2#8).describes .nop 0xC2#8 .imm .immediate 2 = true),
    (rfl : (rowOf 0xC2#8).length = 2),
    (rfl : (rowOf 0xC2#8).implemented = .yes),
    (rfl : decodeBytes 0xC2#8 imm 0x00#8 = _)⟩

theorem dcpIndX (zp : Byte) : Statement (.dcpIndX zp) :=
  ⟨(rfl : (rowOf 0xC3#8).describes .dcp 0xC3#8 .indX .indirectX 2 = true),
    (rfl : (rowOf 0xC3#8).length = 2),
    (rfl : (rowOf 0xC3#8).implemented = .yes),
    (rfl : decodeBytes 0xC3#8 zp 0x00#8 = _)⟩

theorem cpyZp (zp : Byte) : Statement (.cpyZp zp) :=
  ⟨(rfl : (rowOf 0xC4#8).describes .cpy 0xC4#8 .zp .zeroPage 2 = true),
    (rfl : (rowOf 0xC4#8).length = 2),
    (rfl : (rowOf 0xC4#8).implemented = .yes),
    (rfl : decodeBytes 0xC4#8 zp 0x00#8 = _)⟩

theorem cmpZp (zp : Byte) : Statement (.cmpZp zp) :=
  ⟨(rfl : (rowOf 0xC5#8).describes .cmp 0xC5#8 .zp .zeroPage 2 = true),
    (rfl : (rowOf 0xC5#8).length = 2),
    (rfl : (rowOf 0xC5#8).implemented = .yes),
    (rfl : decodeBytes 0xC5#8 zp 0x00#8 = _)⟩

theorem decZp (zp : Byte) : Statement (.decZp zp) :=
  ⟨(rfl : (rowOf 0xC6#8).describes .dec 0xC6#8 .zp .zeroPage 2 = true),
    (rfl : (rowOf 0xC6#8).length = 2),
    (rfl : (rowOf 0xC6#8).implemented = .yes),
    (rfl : decodeBytes 0xC6#8 zp 0x00#8 = _)⟩

theorem dcpZp (zp : Byte) : Statement (.dcpZp zp) :=
  ⟨(rfl : (rowOf 0xC7#8).describes .dcp 0xC7#8 .zp .zeroPage 2 = true),
    (rfl : (rowOf 0xC7#8).length = 2),
    (rfl : (rowOf 0xC7#8).implemented = .yes),
    (rfl : decodeBytes 0xC7#8 zp 0x00#8 = _)⟩

theorem cmpImm (imm : Byte) : Statement (.cmpImm imm) :=
  ⟨(rfl : (rowOf 0xC9#8).describes .cmp 0xC9#8 .imm .immediate 2 = true),
    (rfl : (rowOf 0xC9#8).length = 2),
    (rfl : (rowOf 0xC9#8).implemented = .yes),
    (rfl : decodeBytes 0xC9#8 imm 0x00#8 = _)⟩

theorem axsImm (imm : Byte) : Statement (.axsImm imm) :=
  ⟨(rfl : (rowOf 0xCB#8).describes .axs 0xCB#8 .imm .immediate 2 = true),
    (rfl : (rowOf 0xCB#8).length = 2),
    (rfl : (rowOf 0xCB#8).implemented = .yes),
    (rfl : decodeBytes 0xCB#8 imm 0x00#8 = _)⟩

theorem cpyAbs (addr : Word) : Statement (.cpyAbs addr) :=
  ⟨(rfl : (rowOf 0xCC#8).describes .cpy 0xCC#8 .abs .absolute 3 = true),
    (rfl : (rowOf 0xCC#8).length = 3),
    (rfl : (rowOf 0xCC#8).implemented = .yes),
    (Eq.trans (rfl : decodeBytes 0xCC#8 (lowByte addr) (highByte addr) = _) (congrArg Instr.cpyAbs (wordOf_high_low addr)))⟩

theorem cmpAbs (addr : Word) : Statement (.cmpAbs addr) :=
  ⟨(rfl : (rowOf 0xCD#8).describes .cmp 0xCD#8 .abs .absolute 3 = true),
    (rfl : (rowOf 0xCD#8).length = 3),
    (rfl : (rowOf 0xCD#8).implemented = .yes),
    (Eq.trans (rfl : decodeBytes 0xCD#8 (lowByte addr) (highByte addr) = _) (congrArg Instr.cmpAbs (wordOf_high_low addr)))⟩

theorem decAbs (addr : Word) : Statement (.decAbs addr) :=
  ⟨(rfl : (rowOf 0xCE#8).describes .dec 0xCE#8 .abs .absolute 3 = true),
    (rfl : (rowOf 0xCE#8).length = 3),
    (rfl : (rowOf 0xCE#8).implemented = .yes),
    (Eq.trans (rfl : decodeBytes 0xCE#8 (lowByte addr) (highByte addr) = _) (congrArg Instr.decAbs (wordOf_high_low addr)))⟩

theorem dcpAbs (addr : Word) : Statement (.dcpAbs addr) :=
  ⟨(rfl : (rowOf 0xCF#8).describes .dcp 0xCF#8 .abs .absolute 3 = true),
    (rfl : (rowOf 0xCF#8).length = 3),
    (rfl : (rowOf 0xCF#8).implemented = .yes),
    (Eq.trans (rfl : decodeBytes 0xCF#8 (lowByte addr) (highByte addr) = _) (congrArg Instr.dcpAbs (wordOf_high_low addr)))⟩

theorem bne (off : Byte) : Statement (.bne off) :=
  ⟨(rfl : (rowOf 0xD0#8).describes .bne 0xD0#8 .rel .noneAddressing 2 = true),
    (rfl : (rowOf 0xD0#8).length = 2),
    (rfl : (rowOf 0xD0#8).implemented = .yes),
    (rfl : decodeBytes 0xD0#8 off 0x00#8 = _)⟩

theorem cmpIndY (zp : Byte) : Statement (.cmpIndY zp) :=
  ⟨(rfl : (rowOf 0xD1#8).describes .cmp 0xD1#8 .indY .indirectY 2 = true),
    (rfl : (rowOf 0xD1#8).length = 2),
    (rfl : (rowOf 0xD1#8).implemented = .yes),
    (rfl : decodeBytes 0xD1#8 zp 0x00#8 = _)⟩

theorem dcpIndY (zp : Byte) : Statement (.dcpIndY zp) :=
  ⟨(rfl : (rowOf 0xD3#8).describes .dcp 0xD3#8 .indY .indirectY 2 = true),
    (rfl : (rowOf 0xD3#8).length = 2),
    (rfl : (rowOf 0xD3#8).implemented = .yes),
    (rfl : decodeBytes 0xD3#8 zp 0x00#8 = _)⟩

theorem nopZpXD4 (zp : Byte) : Statement (.nopZpXD4 zp) :=
  ⟨(rfl : (rowOf 0xD4#8).describes .nop 0xD4#8 .zpX .zeroPageX 2 = true),
    (rfl : (rowOf 0xD4#8).length = 2),
    (rfl : (rowOf 0xD4#8).implemented = .yes),
    (rfl : decodeBytes 0xD4#8 zp 0x00#8 = _)⟩

theorem cmpZpX (zp : Byte) : Statement (.cmpZpX zp) :=
  ⟨(rfl : (rowOf 0xD5#8).describes .cmp 0xD5#8 .zpX .zeroPageX 2 = true),
    (rfl : (rowOf 0xD5#8).length = 2),
    (rfl : (rowOf 0xD5#8).implemented = .yes),
    (rfl : decodeBytes 0xD5#8 zp 0x00#8 = _)⟩

theorem decZpX (zp : Byte) : Statement (.decZpX zp) :=
  ⟨(rfl : (rowOf 0xD6#8).describes .dec 0xD6#8 .zpX .zeroPageX 2 = true),
    (rfl : (rowOf 0xD6#8).length = 2),
    (rfl : (rowOf 0xD6#8).implemented = .yes),
    (rfl : decodeBytes 0xD6#8 zp 0x00#8 = _)⟩

theorem dcpZpX (zp : Byte) : Statement (.dcpZpX zp) :=
  ⟨(rfl : (rowOf 0xD7#8).describes .dcp 0xD7#8 .zpX .zeroPageX 2 = true),
    (rfl : (rowOf 0xD7#8).length = 2),
    (rfl : (rowOf 0xD7#8).implemented = .yes),
    (rfl : decodeBytes 0xD7#8 zp 0x00#8 = _)⟩

theorem cmpAbsY (addr : Word) : Statement (.cmpAbsY addr) :=
  ⟨(rfl : (rowOf 0xD9#8).describes .cmp 0xD9#8 .absY .absoluteY 3 = true),
    (rfl : (rowOf 0xD9#8).length = 3),
    (rfl : (rowOf 0xD9#8).implemented = .yes),
    (Eq.trans (rfl : decodeBytes 0xD9#8 (lowByte addr) (highByte addr) = _) (congrArg Instr.cmpAbsY (wordOf_high_low addr)))⟩

theorem dcpAbsY (addr : Word) : Statement (.dcpAbsY addr) :=
  ⟨(rfl : (rowOf 0xDB#8).describes .dcp 0xDB#8 .absY .absoluteY 3 = true),
    (rfl : (rowOf 0xDB#8).length = 3),
    (rfl : (rowOf 0xDB#8).implemented = .yes),
    (Eq.trans (rfl : decodeBytes 0xDB#8 (lowByte addr) (highByte addr) = _) (congrArg Instr.dcpAbsY (wordOf_high_low addr)))⟩

theorem nopAbsXDC (addr : Word) : Statement (.nopAbsXDC addr) :=
  ⟨(rfl : (rowOf 0xDC#8).describes .nop 0xDC#8 .absX .absoluteX 3 = true),
    (rfl : (rowOf 0xDC#8).length = 3),
    (rfl : (rowOf 0xDC#8).implemented = .yes),
    (Eq.trans (rfl : decodeBytes 0xDC#8 (lowByte addr) (highByte addr) = _) (congrArg Instr.nopAbsXDC (wordOf_high_low addr)))⟩

theorem cmpAbsX (addr : Word) : Statement (.cmpAbsX addr) :=
  ⟨(rfl : (rowOf 0xDD#8).describes .cmp 0xDD#8 .absX .absoluteX 3 = true),
    (rfl : (rowOf 0xDD#8).length = 3),
    (rfl : (rowOf 0xDD#8).implemented = .yes),
    (Eq.trans (rfl : decodeBytes 0xDD#8 (lowByte addr) (highByte addr) = _) (congrArg Instr.cmpAbsX (wordOf_high_low addr)))⟩

theorem decAbsX (addr : Word) : Statement (.decAbsX addr) :=
  ⟨(rfl : (rowOf 0xDE#8).describes .dec 0xDE#8 .absX .absoluteX 3 = true),
    (rfl : (rowOf 0xDE#8).length = 3),
    (rfl : (rowOf 0xDE#8).implemented = .yes),
    (Eq.trans (rfl : decodeBytes 0xDE#8 (lowByte addr) (highByte addr) = _) (congrArg Instr.decAbsX (wordOf_high_low addr)))⟩

theorem dcpAbsX (addr : Word) : Statement (.dcpAbsX addr) :=
  ⟨(rfl : (rowOf 0xDF#8).describes .dcp 0xDF#8 .absX .absoluteX 3 = true),
    (rfl : (rowOf 0xDF#8).length = 3),
    (rfl : (rowOf 0xDF#8).implemented = .yes),
    (Eq.trans (rfl : decodeBytes 0xDF#8 (lowByte addr) (highByte addr) = _) (congrArg Instr.dcpAbsX (wordOf_high_low addr)))⟩

theorem cpxImm (imm : Byte) : Statement (.cpxImm imm) :=
  ⟨(rfl : (rowOf 0xE0#8).describes .cpx 0xE0#8 .imm .immediate 2 = true),
    (rfl : (rowOf 0xE0#8).length = 2),
    (rfl : (rowOf 0xE0#8).implemented = .yes),
    (rfl : decodeBytes 0xE0#8 imm 0x00#8 = _)⟩

theorem sbcIndX (zp : Byte) : Statement (.sbcIndX zp) :=
  ⟨(rfl : (rowOf 0xE1#8).describes .sbc 0xE1#8 .indX .indirectX 2 = true),
    (rfl : (rowOf 0xE1#8).length = 2),
    (rfl : (rowOf 0xE1#8).implemented = .yes),
    (rfl : decodeBytes 0xE1#8 zp 0x00#8 = _)⟩

theorem nopImmE2 (imm : Byte) : Statement (.nopImmE2 imm) :=
  ⟨(rfl : (rowOf 0xE2#8).describes .nop 0xE2#8 .imm .immediate 2 = true),
    (rfl : (rowOf 0xE2#8).length = 2),
    (rfl : (rowOf 0xE2#8).implemented = .yes),
    (rfl : decodeBytes 0xE2#8 imm 0x00#8 = _)⟩

theorem isbIndX (zp : Byte) : Statement (.isbIndX zp) :=
  ⟨(rfl : (rowOf 0xE3#8).describes .isb 0xE3#8 .indX .indirectX 2 = true),
    (rfl : (rowOf 0xE3#8).length = 2),
    (rfl : (rowOf 0xE3#8).implemented = .yes),
    (rfl : decodeBytes 0xE3#8 zp 0x00#8 = _)⟩

theorem cpxZp (zp : Byte) : Statement (.cpxZp zp) :=
  ⟨(rfl : (rowOf 0xE4#8).describes .cpx 0xE4#8 .zp .zeroPage 2 = true),
    (rfl : (rowOf 0xE4#8).length = 2),
    (rfl : (rowOf 0xE4#8).implemented = .yes),
    (rfl : decodeBytes 0xE4#8 zp 0x00#8 = _)⟩

theorem sbcZp (zp : Byte) : Statement (.sbcZp zp) :=
  ⟨(rfl : (rowOf 0xE5#8).describes .sbc 0xE5#8 .zp .zeroPage 2 = true),
    (rfl : (rowOf 0xE5#8).length = 2),
    (rfl : (rowOf 0xE5#8).implemented = .yes),
    (rfl : decodeBytes 0xE5#8 zp 0x00#8 = _)⟩

theorem incZp (zp : Byte) : Statement (.incZp zp) :=
  ⟨(rfl : (rowOf 0xE6#8).describes .inc 0xE6#8 .zp .zeroPage 2 = true),
    (rfl : (rowOf 0xE6#8).length = 2),
    (rfl : (rowOf 0xE6#8).implemented = .yes),
    (rfl : decodeBytes 0xE6#8 zp 0x00#8 = _)⟩

theorem isbZp (zp : Byte) : Statement (.isbZp zp) :=
  ⟨(rfl : (rowOf 0xE7#8).describes .isb 0xE7#8 .zp .zeroPage 2 = true),
    (rfl : (rowOf 0xE7#8).length = 2),
    (rfl : (rowOf 0xE7#8).implemented = .yes),
    (rfl : decodeBytes 0xE7#8 zp 0x00#8 = _)⟩

theorem sbcImm (imm : Byte) : Statement (.sbcImm imm) :=
  ⟨(rfl : (rowOf 0xE9#8).describes .sbc 0xE9#8 .imm .immediate 2 = true),
    (rfl : (rowOf 0xE9#8).length = 2),
    (rfl : (rowOf 0xE9#8).implemented = .yes),
    (rfl : decodeBytes 0xE9#8 imm 0x00#8 = _)⟩

theorem sbcImmEB (imm : Byte) : Statement (.sbcImmEB imm) :=
  ⟨(rfl : (rowOf 0xEB#8).describes .sbc 0xEB#8 .imm .immediate 2 = true),
    (rfl : (rowOf 0xEB#8).length = 2),
    (rfl : (rowOf 0xEB#8).implemented = .yes),
    (rfl : decodeBytes 0xEB#8 imm 0x00#8 = _)⟩

theorem cpxAbs (addr : Word) : Statement (.cpxAbs addr) :=
  ⟨(rfl : (rowOf 0xEC#8).describes .cpx 0xEC#8 .abs .absolute 3 = true),
    (rfl : (rowOf 0xEC#8).length = 3),
    (rfl : (rowOf 0xEC#8).implemented = .yes),
    (Eq.trans (rfl : decodeBytes 0xEC#8 (lowByte addr) (highByte addr) = _) (congrArg Instr.cpxAbs (wordOf_high_low addr)))⟩

theorem sbcAbs (addr : Word) : Statement (.sbcAbs addr) :=
  ⟨(rfl : (rowOf 0xED#8).describes .sbc 0xED#8 .abs .absolute 3 = true),
    (rfl : (rowOf 0xED#8).length = 3),
    (rfl : (rowOf 0xED#8).implemented = .yes),
    (Eq.trans (rfl : decodeBytes 0xED#8 (lowByte addr) (highByte addr) = _) (congrArg Instr.sbcAbs (wordOf_high_low addr)))⟩

theorem incAbs (addr : Word) : Statement (.incAbs addr) :=
  ⟨(rfl : (rowOf 0xEE#8).describes .inc 0xEE#8 .abs .absolute 3 = true),
    (rfl : (rowOf 0xEE#8).length = 3),
    (rfl : (rowOf 0xEE#8).implemented = .yes),
    (Eq.trans (rfl : decodeBytes 0xEE#8 (lowByte addr) (highByte addr) = _) (congrArg Instr.incAbs (wordOf_high_low addr)))⟩

theorem isbAbs (addr : Word) : Statement (.isbAbs addr) :=
  ⟨(rfl : (rowOf 0xEF#8).describes .isb 0xEF#8 .abs .absolute 3 = true),
    (rfl : (rowOf 0xEF#8).length = 3),
    (rfl : (rowOf 0xEF#8).implemented = .yes),
    (Eq.trans (rfl : decodeBytes 0xEF#8 (lowByte addr) (highByte addr) = _) (congrArg Instr.isbAbs (wordOf_high_low addr)))⟩

theorem beq (off : Byte) : Statement (.beq off) :=
  ⟨(rfl : (rowOf 0xF0#8).describes .beq 0xF0#8 .rel .noneAddressing 2 = true),
    (rfl : (rowOf 0xF0#8).length = 2),
    (rfl : (rowOf 0xF0#8).implemented = .yes),
    (rfl : decodeBytes 0xF0#8 off 0x00#8 = _)⟩

theorem sbcIndY (zp : Byte) : Statement (.sbcIndY zp) :=
  ⟨(rfl : (rowOf 0xF1#8).describes .sbc 0xF1#8 .indY .indirectY 2 = true),
    (rfl : (rowOf 0xF1#8).length = 2),
    (rfl : (rowOf 0xF1#8).implemented = .yes),
    (rfl : decodeBytes 0xF1#8 zp 0x00#8 = _)⟩

theorem isbIndY (zp : Byte) : Statement (.isbIndY zp) :=
  ⟨(rfl : (rowOf 0xF3#8).describes .isb 0xF3#8 .indY .indirectY 2 = true),
    (rfl : (rowOf 0xF3#8).length = 2),
    (rfl : (rowOf 0xF3#8).implemented = .yes),
    (rfl : decodeBytes 0xF3#8 zp 0x00#8 = _)⟩

theorem nopZpXF4 (zp : Byte) : Statement (.nopZpXF4 zp) :=
  ⟨(rfl : (rowOf 0xF4#8).describes .nop 0xF4#8 .zpX .zeroPageX 2 = true),
    (rfl : (rowOf 0xF4#8).length = 2),
    (rfl : (rowOf 0xF4#8).implemented = .yes),
    (rfl : decodeBytes 0xF4#8 zp 0x00#8 = _)⟩

theorem sbcZpX (zp : Byte) : Statement (.sbcZpX zp) :=
  ⟨(rfl : (rowOf 0xF5#8).describes .sbc 0xF5#8 .zpX .zeroPageX 2 = true),
    (rfl : (rowOf 0xF5#8).length = 2),
    (rfl : (rowOf 0xF5#8).implemented = .yes),
    (rfl : decodeBytes 0xF5#8 zp 0x00#8 = _)⟩

theorem incZpX (zp : Byte) : Statement (.incZpX zp) :=
  ⟨(rfl : (rowOf 0xF6#8).describes .inc 0xF6#8 .zpX .zeroPageX 2 = true),
    (rfl : (rowOf 0xF6#8).length = 2),
    (rfl : (rowOf 0xF6#8).implemented = .yes),
    (rfl : decodeBytes 0xF6#8 zp 0x00#8 = _)⟩

theorem isbZpX (zp : Byte) : Statement (.isbZpX zp) :=
  ⟨(rfl : (rowOf 0xF7#8).describes .isb 0xF7#8 .zpX .zeroPageX 2 = true),
    (rfl : (rowOf 0xF7#8).length = 2),
    (rfl : (rowOf 0xF7#8).implemented = .yes),
    (rfl : decodeBytes 0xF7#8 zp 0x00#8 = _)⟩

theorem sbcAbsY (addr : Word) : Statement (.sbcAbsY addr) :=
  ⟨(rfl : (rowOf 0xF9#8).describes .sbc 0xF9#8 .absY .absoluteY 3 = true),
    (rfl : (rowOf 0xF9#8).length = 3),
    (rfl : (rowOf 0xF9#8).implemented = .yes),
    (Eq.trans (rfl : decodeBytes 0xF9#8 (lowByte addr) (highByte addr) = _) (congrArg Instr.sbcAbsY (wordOf_high_low addr)))⟩

theorem isbAbsY (addr : Word) : Statement (.isbAbsY addr) :=
  ⟨(rfl : (rowOf 0xFB#8).describes .isb 0xFB#8 .absY .absoluteY 3 = true),
    (rfl : (rowOf 0xFB#8).length = 3),
    (rfl : (rowOf 0xFB#8).implemented = .yes),
    (Eq.trans (rfl : decodeBytes 0xFB#8 (lowByte addr) (highByte addr) = _) (congrArg Instr.isbAbsY (wordOf_high_low addr)))⟩

theorem nopAbsXFC (addr : Word) : Statement (.nopAbsXFC addr) :=
  ⟨(rfl : (rowOf 0xFC#8).describes .nop 0xFC#8 .absX .absoluteX 3 = true),
    (rfl : (rowOf 0xFC#8).length = 3),
    (rfl : (rowOf 0xFC#8).implemented = .yes),
    (Eq.trans (rfl : decodeBytes 0xFC#8 (lowByte addr) (highByte addr) = _) (congrArg Instr.nopAbsXFC (wordOf_high_low addr)))⟩

theorem sbcAbsX (addr : Word) : Statement (.sbcAbsX addr) :=
  ⟨(rfl : (rowOf 0xFD#8).describes .sbc 0xFD#8 .absX .absoluteX 3 = true),
    (rfl : (rowOf 0xFD#8).length = 3),
    (rfl : (rowOf 0xFD#8).implemented = .yes),
    (Eq.trans (rfl : decodeBytes 0xFD#8 (lowByte addr) (highByte addr) = _) (congrArg Instr.sbcAbsX (wordOf_high_low addr)))⟩

theorem incAbsX (addr : Word) : Statement (.incAbsX addr) :=
  ⟨(rfl : (rowOf 0xFE#8).describes .inc 0xFE#8 .absX .absoluteX 3 = true),
    (rfl : (rowOf 0xFE#8).length = 3),
    (rfl : (rowOf 0xFE#8).implemented = .yes),
    (Eq.trans (rfl : decodeBytes 0xFE#8 (lowByte addr) (highByte addr) = _) (congrArg Instr.incAbsX (wordOf_high_low addr)))⟩

theorem isbAbsX (addr : Word) : Statement (.isbAbsX addr) :=
  ⟨(rfl : (rowOf 0xFF#8).describes .isb 0xFF#8 .absX .absoluteX 3 = true),
    (rfl : (rowOf 0xFF#8).length = 3),
    (rfl : (rowOf 0xFF#8).implemented = .yes),
    (Eq.trans (rfl : decodeBytes 0xFF#8 (lowByte addr) (highByte addr) = _) (congrArg Instr.isbAbsX (wordOf_high_low addr)))⟩

theorem brk : Statement .brk :=
  ⟨(rfl : (rowOf 0x00#8).describes .brk 0x00#8 .imp .noneAddressing 1 = true),
    (rfl : (rowOf 0x00#8).length = 1),
    (rfl : (rowOf 0x00#8).implemented = .yes),
    (rfl : decodeBytes 0x00#8 0x00#8 0x00#8 = _)⟩

theorem jam02 : Statement .jam02 :=
  ⟨(rfl : (rowOf 0x02#8).describes .jam 0x02#8 .imp .noneAddressing 1 = true),
    (rfl : (rowOf 0x02#8).length = 1),
    (rfl : (rowOf 0x02#8).implemented = .no),
    (rfl : decodeBytes 0x02#8 0x00#8 0x00#8 = _)⟩

theorem php : Statement .php :=
  ⟨(rfl : (rowOf 0x08#8).describes .php 0x08#8 .imp .noneAddressing 1 = true),
    (rfl : (rowOf 0x08#8).length = 1),
    (rfl : (rowOf 0x08#8).implemented = .yes),
    (rfl : decodeBytes 0x08#8 0x00#8 0x00#8 = _)⟩

theorem aslAcc : Statement .aslAcc :=
  ⟨(rfl : (rowOf 0x0A#8).describes .asl 0x0A#8 .acc .noneAddressing 1 = true),
    (rfl : (rowOf 0x0A#8).length = 1),
    (rfl : (rowOf 0x0A#8).implemented = .yes),
    (rfl : decodeBytes 0x0A#8 0x00#8 0x00#8 = _)⟩

theorem jam12 : Statement .jam12 :=
  ⟨(rfl : (rowOf 0x12#8).describes .jam 0x12#8 .imp .noneAddressing 1 = true),
    (rfl : (rowOf 0x12#8).length = 1),
    (rfl : (rowOf 0x12#8).implemented = .no),
    (rfl : decodeBytes 0x12#8 0x00#8 0x00#8 = _)⟩

theorem clc : Statement .clc :=
  ⟨(rfl : (rowOf 0x18#8).describes .clc 0x18#8 .imp .noneAddressing 1 = true),
    (rfl : (rowOf 0x18#8).length = 1),
    (rfl : (rowOf 0x18#8).implemented = .yes),
    (rfl : decodeBytes 0x18#8 0x00#8 0x00#8 = _)⟩

theorem nop1A : Statement .nop1A :=
  ⟨(rfl : (rowOf 0x1A#8).describes .nop 0x1A#8 .imp .noneAddressing 1 = true),
    (rfl : (rowOf 0x1A#8).length = 1),
    (rfl : (rowOf 0x1A#8).implemented = .yes),
    (rfl : decodeBytes 0x1A#8 0x00#8 0x00#8 = _)⟩

theorem jam22 : Statement .jam22 :=
  ⟨(rfl : (rowOf 0x22#8).describes .jam 0x22#8 .imp .noneAddressing 1 = true),
    (rfl : (rowOf 0x22#8).length = 1),
    (rfl : (rowOf 0x22#8).implemented = .no),
    (rfl : decodeBytes 0x22#8 0x00#8 0x00#8 = _)⟩

theorem plp : Statement .plp :=
  ⟨(rfl : (rowOf 0x28#8).describes .plp 0x28#8 .imp .noneAddressing 1 = true),
    (rfl : (rowOf 0x28#8).length = 1),
    (rfl : (rowOf 0x28#8).implemented = .yes),
    (rfl : decodeBytes 0x28#8 0x00#8 0x00#8 = _)⟩

theorem rolAcc : Statement .rolAcc :=
  ⟨(rfl : (rowOf 0x2A#8).describes .rol 0x2A#8 .acc .noneAddressing 1 = true),
    (rfl : (rowOf 0x2A#8).length = 1),
    (rfl : (rowOf 0x2A#8).implemented = .yes),
    (rfl : decodeBytes 0x2A#8 0x00#8 0x00#8 = _)⟩

theorem jam32 : Statement .jam32 :=
  ⟨(rfl : (rowOf 0x32#8).describes .jam 0x32#8 .imp .noneAddressing 1 = true),
    (rfl : (rowOf 0x32#8).length = 1),
    (rfl : (rowOf 0x32#8).implemented = .no),
    (rfl : decodeBytes 0x32#8 0x00#8 0x00#8 = _)⟩

theorem sec : Statement .sec :=
  ⟨(rfl : (rowOf 0x38#8).describes .sec 0x38#8 .imp .noneAddressing 1 = true),
    (rfl : (rowOf 0x38#8).length = 1),
    (rfl : (rowOf 0x38#8).implemented = .yes),
    (rfl : decodeBytes 0x38#8 0x00#8 0x00#8 = _)⟩

theorem nop3A : Statement .nop3A :=
  ⟨(rfl : (rowOf 0x3A#8).describes .nop 0x3A#8 .imp .noneAddressing 1 = true),
    (rfl : (rowOf 0x3A#8).length = 1),
    (rfl : (rowOf 0x3A#8).implemented = .yes),
    (rfl : decodeBytes 0x3A#8 0x00#8 0x00#8 = _)⟩

theorem rti : Statement .rti :=
  ⟨(rfl : (rowOf 0x40#8).describes .rti 0x40#8 .imp .noneAddressing 1 = true),
    (rfl : (rowOf 0x40#8).length = 1),
    (rfl : (rowOf 0x40#8).implemented = .yes),
    (rfl : decodeBytes 0x40#8 0x00#8 0x00#8 = _)⟩

theorem jam42 : Statement .jam42 :=
  ⟨(rfl : (rowOf 0x42#8).describes .jam 0x42#8 .imp .noneAddressing 1 = true),
    (rfl : (rowOf 0x42#8).length = 1),
    (rfl : (rowOf 0x42#8).implemented = .no),
    (rfl : decodeBytes 0x42#8 0x00#8 0x00#8 = _)⟩

theorem pha : Statement .pha :=
  ⟨(rfl : (rowOf 0x48#8).describes .pha 0x48#8 .imp .noneAddressing 1 = true),
    (rfl : (rowOf 0x48#8).length = 1),
    (rfl : (rowOf 0x48#8).implemented = .yes),
    (rfl : decodeBytes 0x48#8 0x00#8 0x00#8 = _)⟩

theorem lsrAcc : Statement .lsrAcc :=
  ⟨(rfl : (rowOf 0x4A#8).describes .lsr 0x4A#8 .acc .noneAddressing 1 = true),
    (rfl : (rowOf 0x4A#8).length = 1),
    (rfl : (rowOf 0x4A#8).implemented = .yes),
    (rfl : decodeBytes 0x4A#8 0x00#8 0x00#8 = _)⟩

theorem jam52 : Statement .jam52 :=
  ⟨(rfl : (rowOf 0x52#8).describes .jam 0x52#8 .imp .noneAddressing 1 = true),
    (rfl : (rowOf 0x52#8).length = 1),
    (rfl : (rowOf 0x52#8).implemented = .no),
    (rfl : decodeBytes 0x52#8 0x00#8 0x00#8 = _)⟩

theorem cli : Statement .cli :=
  ⟨(rfl : (rowOf 0x58#8).describes .cli 0x58#8 .imp .noneAddressing 1 = true),
    (rfl : (rowOf 0x58#8).length = 1),
    (rfl : (rowOf 0x58#8).implemented = .yes),
    (rfl : decodeBytes 0x58#8 0x00#8 0x00#8 = _)⟩

theorem nop5A : Statement .nop5A :=
  ⟨(rfl : (rowOf 0x5A#8).describes .nop 0x5A#8 .imp .noneAddressing 1 = true),
    (rfl : (rowOf 0x5A#8).length = 1),
    (rfl : (rowOf 0x5A#8).implemented = .yes),
    (rfl : decodeBytes 0x5A#8 0x00#8 0x00#8 = _)⟩

theorem rts : Statement .rts :=
  ⟨(rfl : (rowOf 0x60#8).describes .rts 0x60#8 .imp .noneAddressing 1 = true),
    (rfl : (rowOf 0x60#8).length = 1),
    (rfl : (rowOf 0x60#8).implemented = .yes),
    (rfl : decodeBytes 0x60#8 0x00#8 0x00#8 = _)⟩

theorem jam62 : Statement .jam62 :=
  ⟨(rfl : (rowOf 0x62#8).describes .jam 0x62#8 .imp .noneAddressing 1 = true),
    (rfl : (rowOf 0x62#8).length = 1),
    (rfl : (rowOf 0x62#8).implemented = .no),
    (rfl : decodeBytes 0x62#8 0x00#8 0x00#8 = _)⟩

theorem pla : Statement .pla :=
  ⟨(rfl : (rowOf 0x68#8).describes .pla 0x68#8 .imp .noneAddressing 1 = true),
    (rfl : (rowOf 0x68#8).length = 1),
    (rfl : (rowOf 0x68#8).implemented = .yes),
    (rfl : decodeBytes 0x68#8 0x00#8 0x00#8 = _)⟩

theorem rorAcc : Statement .rorAcc :=
  ⟨(rfl : (rowOf 0x6A#8).describes .ror 0x6A#8 .acc .noneAddressing 1 = true),
    (rfl : (rowOf 0x6A#8).length = 1),
    (rfl : (rowOf 0x6A#8).implemented = .yes),
    (rfl : decodeBytes 0x6A#8 0x00#8 0x00#8 = _)⟩

theorem jam72 : Statement .jam72 :=
  ⟨(rfl : (rowOf 0x72#8).describes .jam 0x72#8 .imp .noneAddressing 1 = true),
    (rfl : (rowOf 0x72#8).length = 1),
    (rfl : (rowOf 0x72#8).implemented = .no),
    (rfl : decodeBytes 0x72#8 0x00#8 0x00#8 = _)⟩

theorem sei : Statement .sei :=
  ⟨(rfl : (rowOf 0x78#8).describes .sei 0x78#8 .imp .noneAddressing 1 = true),
    (rfl : (rowOf 0x78#8).length = 1),
    (rfl : (rowOf 0x78#8).implemented = .yes),
    (rfl : decodeBytes 0x78#8 0x00#8 0x00#8 = _)⟩

theorem nop7A : Statement .nop7A :=
  ⟨(rfl : (rowOf 0x7A#8).describes .nop 0x7A#8 .imp .noneAddressing 1 = true),
    (rfl : (rowOf 0x7A#8).length = 1),
    (rfl : (rowOf 0x7A#8).implemented = .yes),
    (rfl : decodeBytes 0x7A#8 0x00#8 0x00#8 = _)⟩

theorem dey : Statement .dey :=
  ⟨(rfl : (rowOf 0x88#8).describes .dey 0x88#8 .imp .noneAddressing 1 = true),
    (rfl : (rowOf 0x88#8).length = 1),
    (rfl : (rowOf 0x88#8).implemented = .yes),
    (rfl : decodeBytes 0x88#8 0x00#8 0x00#8 = _)⟩

theorem txa : Statement .txa :=
  ⟨(rfl : (rowOf 0x8A#8).describes .txa 0x8A#8 .imp .noneAddressing 1 = true),
    (rfl : (rowOf 0x8A#8).length = 1),
    (rfl : (rowOf 0x8A#8).implemented = .yes),
    (rfl : decodeBytes 0x8A#8 0x00#8 0x00#8 = _)⟩

theorem jam92 : Statement .jam92 :=
  ⟨(rfl : (rowOf 0x92#8).describes .jam 0x92#8 .imp .noneAddressing 1 = true),
    (rfl : (rowOf 0x92#8).length = 1),
    (rfl : (rowOf 0x92#8).implemented = .no),
    (rfl : decodeBytes 0x92#8 0x00#8 0x00#8 = _)⟩

theorem tya : Statement .tya :=
  ⟨(rfl : (rowOf 0x98#8).describes .tya 0x98#8 .imp .noneAddressing 1 = true),
    (rfl : (rowOf 0x98#8).length = 1),
    (rfl : (rowOf 0x98#8).implemented = .yes),
    (rfl : decodeBytes 0x98#8 0x00#8 0x00#8 = _)⟩

theorem txs : Statement .txs :=
  ⟨(rfl : (rowOf 0x9A#8).describes .txs 0x9A#8 .imp .noneAddressing 1 = true),
    (rfl : (rowOf 0x9A#8).length = 1),
    (rfl : (rowOf 0x9A#8).implemented = .yes),
    (rfl : decodeBytes 0x9A#8 0x00#8 0x00#8 = _)⟩

theorem tay : Statement .tay :=
  ⟨(rfl : (rowOf 0xA8#8).describes .tay 0xA8#8 .imp .noneAddressing 1 = true),
    (rfl : (rowOf 0xA8#8).length = 1),
    (rfl : (rowOf 0xA8#8).implemented = .yes),
    (rfl : decodeBytes 0xA8#8 0x00#8 0x00#8 = _)⟩

theorem tax : Statement .tax :=
  ⟨(rfl : (rowOf 0xAA#8).describes .tax 0xAA#8 .imp .noneAddressing 1 = true),
    (rfl : (rowOf 0xAA#8).length = 1),
    (rfl : (rowOf 0xAA#8).implemented = .yes),
    (rfl : decodeBytes 0xAA#8 0x00#8 0x00#8 = _)⟩

theorem jamB2 : Statement .jamB2 :=
  ⟨(rfl : (rowOf 0xB2#8).describes .jam 0xB2#8 .imp .noneAddressing 1 = true),
    (rfl : (rowOf 0xB2#8).length = 1),
    (rfl : (rowOf 0xB2#8).implemented = .no),
    (rfl : decodeBytes 0xB2#8 0x00#8 0x00#8 = _)⟩

theorem clv : Statement .clv :=
  ⟨(rfl : (rowOf 0xB8#8).describes .clv 0xB8#8 .imp .noneAddressing 1 = true),
    (rfl : (rowOf 0xB8#8).length = 1),
    (rfl : (rowOf 0xB8#8).implemented = .yes),
    (rfl : decodeBytes 0xB8#8 0x00#8 0x00#8 = _)⟩

theorem tsx : Statement .tsx :=
  ⟨(rfl : (rowOf 0xBA#8).describes .tsx 0xBA#8 .imp .noneAddressing 1 = true),
    (rfl : (rowOf 0xBA#8).length = 1),
    (rfl : (rowOf 0xBA#8).implemented = .yes),
    (rfl : decodeBytes 0xBA#8 0x00#8 0x00#8 = _)⟩

theorem iny : Statement .iny :=
  ⟨(rfl : (rowOf 0xC8#8).describes .iny 0xC8#8 .imp .noneAddressing 1 = true),
    (rfl : (rowOf 0xC8#8).length = 1),
    (rfl : (rowOf 0xC8#8).implemented = .yes),
    (rfl : decodeBytes 0xC8#8 0x00#8 0x00#8 = _)⟩

theorem dex : Statement .dex :=
  ⟨(rfl : (rowOf 0xCA#8).describes .dex 0xCA#8 .imp .noneAddressing 1 = true),
    (rfl : (rowOf 0xCA#8).length = 1),
    (rfl : (rowOf 0xCA#8).implemented = .yes),
    (rfl : decodeBytes 0xCA#8 0x00#8 0x00#8 = _)⟩

theorem jamD2 : Statement .jamD2 :=
  ⟨(rfl : (rowOf 0xD2#8).describes .jam 0xD2#8 .imp .noneAddressing 1 = true),
    (rfl : (rowOf 0xD2#8).length = 1),
    (rfl : (rowOf 0xD2#8).implemented = .no),
    (rfl : decodeBytes 0xD2#8 0x00#8 0x00#8 = _)⟩

theorem cld : Statement .cld :=
  ⟨(rfl : (rowOf 0xD8#8).describes .cld 0xD8#8 .imp .noneAddressing 1 = true),
    (rfl : (rowOf 0xD8#8).length = 1),
    (rfl : (rowOf 0xD8#8).implemented = .yes),
    (rfl : decodeBytes 0xD8#8 0x00#8 0x00#8 = _)⟩

theorem nopDA : Statement .nopDA :=
  ⟨(rfl : (rowOf 0xDA#8).describes .nop 0xDA#8 .imp .noneAddressing 1 = true),
    (rfl : (rowOf 0xDA#8).length = 1),
    (rfl : (rowOf 0xDA#8).implemented = .yes),
    (rfl : decodeBytes 0xDA#8 0x00#8 0x00#8 = _)⟩

theorem inx : Statement .inx :=
  ⟨(rfl : (rowOf 0xE8#8).describes .inx 0xE8#8 .imp .noneAddressing 1 = true),
    (rfl : (rowOf 0xE8#8).length = 1),
    (rfl : (rowOf 0xE8#8).implemented = .yes),
    (rfl : decodeBytes 0xE8#8 0x00#8 0x00#8 = _)⟩

theorem nop : Statement .nop :=
  ⟨(rfl : (rowOf 0xEA#8).describes .nop 0xEA#8 .imp .noneAddressing 1 = true),
    (rfl : (rowOf 0xEA#8).length = 1),
    (rfl : (rowOf 0xEA#8).implemented = .yes),
    (rfl : decodeBytes 0xEA#8 0x00#8 0x00#8 = _)⟩

theorem jamF2 : Statement .jamF2 :=
  ⟨(rfl : (rowOf 0xF2#8).describes .jam 0xF2#8 .imp .noneAddressing 1 = true),
    (rfl : (rowOf 0xF2#8).length = 1),
    (rfl : (rowOf 0xF2#8).implemented = .no),
    (rfl : decodeBytes 0xF2#8 0x00#8 0x00#8 = _)⟩

theorem sed : Statement .sed :=
  ⟨(rfl : (rowOf 0xF8#8).describes .sed 0xF8#8 .imp .noneAddressing 1 = true),
    (rfl : (rowOf 0xF8#8).length = 1),
    (rfl : (rowOf 0xF8#8).implemented = .yes),
    (rfl : decodeBytes 0xF8#8 0x00#8 0x00#8 = _)⟩

theorem nopFA : Statement .nopFA :=
  ⟨(rfl : (rowOf 0xFA#8).describes .nop 0xFA#8 .imp .noneAddressing 1 = true),
    (rfl : (rowOf 0xFA#8).length = 1),
    (rfl : (rowOf 0xFA#8).implemented = .yes),
    (rfl : decodeBytes 0xFA#8 0x00#8 0x00#8 = _)⟩

/-- Every instruction. -/
theorem all (i : Instr) : Statement i := by
  cases i
  · exact oraIndX _
  · exact sloIndX _
  · exact nopZp04 _
  · exact oraZp _
  · exact aslZp _
  · exact sloZp _
  · exact oraImm _
  · exact ancImm0B _
  · exact nopAbs0C _
  · exact oraAbs _
  · exact aslAbs _
  · exact sloAbs _
  · exact bpl _
  · exact oraIndY _
  · exact sloIndY _
  · exact nopZpX14 _
  · exact oraZpX _
  · exact aslZpX _
  · exact sloZpX _
  · exact oraAbsY _
  · exact sloAbsY _
  · exact nopAbsX1C _
  · exact oraAbsX _
  · exact aslAbsX _
  · exact sloAbsX _
  · exact jsr _
  · exact andIndX _
  · exact rlaIndX _
  · exact bitZp _
  · exact andZp _
  · exact rolZp _
  · exact rlaZp _
  · exact andImm _
  · exact ancImm2B _
  · exact bitAbs _
  · exact andAbs _
  · exact rolAbs _
  · exact rlaAbs _
  · exact bmi _
  · exact andIndY _
  · exact rlaIndY _
  · exact nopZpX34 _
  · exact andZpX _
  · exact rolZpX _
  · exact rlaZpX _
  · exact andAbsY _
  · exact rlaAbsY _
  · exact nopAbsX3C _
  · exact andAbsX _
  · exact rolAbsX _
  · exact rlaAbsX _
  · exact eorIndX _
  · exact sreIndX _
  · exact nopZp44 _
  · exact eorZp _
  · exact lsrZp _
  · exact sreZp _
  · exact eorImm _
  · exact alrImm _
  · exact jmpAbs _
  · exact eorAbs _
  · exact lsrAbs _
  · exact sreAbs _
  · exact bvc _
  · exact eorIndY _
  · exact sreIndY _
  · exact nopZpX54 _
  · exact eorZpX _
  · exact lsrZpX _
  · exact sreZpX _
  · exact eorAbsY _
  · exact sreAbsY _
  · exact nopAbsX5C _
  · exact eorAbsX _
  · exact lsrAbsX _
  · exact sreAbsX _
  · exact adcIndX _
  · exact rraIndX _
  · exact nopZp64 _
  · exact adcZp _
  · exact rorZp _
  · exact rraZp _
  · exact adcImm _
  · exact arrImm _
  · exact jmpInd _
  · exact adcAbs _
  · exact rorAbs _
  · exact rraAbs _
  · exact bvs _
  · exact adcIndY _
  · exact rraIndY _
  · exact nopZpX74 _
  · exact adcZpX _
  · exact rorZpX _
  · exact rraZpX _
  · exact adcAbsY _
  · exact rraAbsY _
  · exact nopAbsX7C _
  · exact adcAbsX _
  · exact rorAbsX _
  · exact rraAbsX _
  · exact nopImm80 _
  · exact staIndX _
  · exact nopImm82 _
  · exact saxIndX _
  · exact styZp _
  · exact staZp _
  · exact stxZp _
  · exact saxZp _
  · exact nopImm89 _
  · exact xaaImm _
  · exact styAbs _
  · exact staAbs _
  · exact stxAbs _
  · exact saxAbs _
  · exact bcc _
  · exact staIndY _
  · exact ahxIndY _
  · exact styZpX _
  · exact staZpX _
  · exact stxZpY _
  · exact saxZpY _
  · exact staAbsY _
  · exact tasAbsY _
  · exact shyAbsX _
  · exact staAbsX _
  · exact shxAbsY _
  · exact ahxAbsY _
  · exact ldyImm _
  · exact ldaIndX _
  · exact ldxImm _
  · exact laxIndX _
  · exact ldyZp _
  · exact ldaZp _
  · exact ldxZp _
  · exact laxZp _
  · exact ldaImm _
  · exact lxaImm _
  · exact ldyAbs _
  · exact ldaAbs _
  · exact ldxAbs _
  · exact laxAbs _
  · exact bcs _
  · exact ldaIndY _
  · exact laxIndY _
  · exact ldyZpX _
  · exact ldaZpX _
  · exact ldxZpY _
  · exact laxZpY _
  · exact ldaAbsY _
  · exact lasAbsY _
  · exact ldyAbsX _
  · exact ldaAbsX _
  · exact ldxAbsY _
  · exact laxAbsY _
  · exact cpyImm _
  · exact cmpIndX _
  · exact nopImmC2 _
  · exact dcpIndX _
  · exact cpyZp _
  · exact cmpZp _
  · exact decZp _
  · exact dcpZp _
  · exact cmpImm _
  · exact axsImm _
  · exact cpyAbs _
  · exact cmpAbs _
  · exact decAbs _
  · exact dcpAbs _
  · exact bne _
  · exact cmpIndY _
  · exact dcpIndY _
  · exact nopZpXD4 _
  · exact cmpZpX _
  · exact decZpX _
  · exact dcpZpX _
  · exact cmpAbsY _
  · exact dcpAbsY _
  · exact nopAbsXDC _
  · exact cmpAbsX _
  · exact decAbsX _
  · exact dcpAbsX _
  · exact cpxImm _
  · exact sbcIndX _
  · exact nopImmE2 _
  · exact isbIndX _
  · exact cpxZp _
  · exact sbcZp _
  · exact incZp _
  · exact isbZp _
  · exact sbcImm _
  · exact sbcImmEB _
  · exact cpxAbs _
  · exact sbcAbs _
  · exact incAbs _
  · exact isbAbs _
  · exact beq _
  · exact sbcIndY _
  · exact isbIndY _
  · exact nopZpXF4 _
  · exact sbcZpX _
  · exact incZpX _
  · exact isbZpX _
  · exact sbcAbsY _
  · exact isbAbsY _
  · exact nopAbsXFC _
  · exact sbcAbsX _
  · exact incAbsX _
  · exact isbAbsX _
  · exact brk
  · exact jam02
  · exact php
  · exact aslAcc
  · exact jam12
  · exact clc
  · exact nop1A
  · exact jam22
  · exact plp
  · exact rolAcc
  · exact jam32
  · exact sec
  · exact nop3A
  · exact rti
  · exact jam42
  · exact pha
  · exact lsrAcc
  · exact jam52
  · exact cli
  · exact nop5A
  · exact rts
  · exact jam62
  · exact pla
  · exact rorAcc
  · exact jam72
  · exact sei
  · exact nop7A
  · exact dey
  · exact txa
  · exact jam92
  · exact tya
  · exact txs
  · exact tay
  · exact tax
  · exact jamB2
  · exact clv
  · exact tsx
  · exact iny
  · exact dex
  · exact jamD2
  · exact cld
  · exact nopDA
  · exact inx
  · exact nop
  · exact jamF2
  · exact sed
  · exact nopFA

end Sys2Proof.Laws.TableRow
end

