-- ==== Sys2Proof/Laws/Decode.lean ====
section
/-! SUPPORT. What the decoder makes of bytes, opcode by opcode: the instruction has that opcode, its row's length and
those operand bytes. -/

namespace Sys2Proof

/-- What the instruction of an opcode and two further bytes is, in the encoder's words. -/
def DecodedFrom (op b1 b2 : Byte) : Prop :=
  (decodeBytes op b1 b2).opcode = op ∧ (decodeBytes op b1 b2).length = (rowOf op).length ∧
  (decodeBytes op b1 b2).operand.bytes = [b1, b2].take ((rowOf op).length - 1) ∧ (rowOf op).length ∈ [1, 2, 3]

theorem decodedFrom_ofNat (n : Nat) (hn : n < 256) (b1 b2 : Byte) : DecodedFrom (BitVec.ofNat 8 n) b1 b2 := by
  have h2 := congrArg₂ (fun x y => [x, y]) (lowByte_wordOf b2 b1) (highByte_wordOf b2 b1)
  interval_cases n <;> first
    | exact ⟨rfl, rfl, rfl, .head _⟩
    | exact ⟨rfl, rfl, rfl, .tail _ (.head _)⟩
    | exact ⟨rfl, rfl, h2, .tail _ (.tail _ (.head _))⟩

theorem decodedFrom (op b1 b2 : Byte) : DecodedFrom op b1 b2 := by
  simpa using decodedFrom_ofNat op.toNat op.isLt b1 b2

/-- Three bytes always decode, and to the instruction the fetch makes of them. -/
theorem decode_three (op b1 b2 : Byte) :
    decode [op, b1, b2] = .ok (decodeBytes op b1 b2, [b1, b2].drop ((rowOf op).length - 1)) := by
  obtain ⟨h1, -, h3, h4⟩ := decodedFrom op b1 b2
  have h := (Laws.TableRow.all (decodeBytes op b1 b2)).2.2.2
  rw [h1, h3] at h
  unfold decode
  simp only [List.mem_cons, List.not_mem_nil, or_false] at h4
  rcases h4 with h4 | h4 | h4 <;> simp [h4] at h ⊢ <;> exact h

end Sys2Proof
end

