-- ==== Sys2Proof/Laws/Dispatch.lean ====
section
/-! SUPPORT. What `exec` does with an instruction, by its mnemonic: the 256 arms are the 76 shared meanings. -/

namespace Sys2Proof.Machine

/-- The shared meaning of a mnemonic. -/
def byMnem (m : Mnem) (i : Instr) (s : State) : Out :=
  match m with
  | .lda => opLda i s
  | .ldx => opLdx i s
  | .ldy => opLdy i s
  | .sta => opSta i s
  | .stx => opStx i s
  | .sty => opSty i s
  | .tax => opTax i s
  | .tay => opTay i s
  | .txa => opTxa i s
  | .tya => opTya i s
  | .tsx => opTsx i s
  | .txs => opTxs i s
  | .adc => opAdc i s
  | .sbc => opSbc i s
  | .and => opAnd i s
  | .ora => opOra i s
  | .eor => opEor i s
  | .bit => opBit i s
  | .cmp => opCmp i s
  | .cpx => opCpx i s
  | .cpy => opCpy i s
  | .inc => opInc i s
  | .dec => opDec i s
  | .inx => opInx i s
  | .iny => opIny i s
  | .dex => opDex i s
  | .dey => opDey i s
  | .asl => opAsl i s
  | .lsr => opLsr i s
  | .rol => opRol i s
  | .ror => opRor i s
  | .bpl => opBpl i s
  | .bmi => opBmi i s
  | .bvc => opBvc i s
  | .bvs => opBvs i s
  | .bcc => opBcc i s
  | .bcs => opBcs i s
  | .bne => opBne i s
  | .beq => opBeq i s
  | .jmp => if i.operand.form = .ind then opJmpInd i s else opJmpAbs i s
  | .jsr => opJsr i s
  | .rts => opRts i s
  | .rti => opRti i s
  | .brk => opBrk i s
  | .pha => opPha i s
  | .pla => opPla i s
  | .php => opPhp i s
  | .plp => opPlp i s
  | .clc => opClc i s
  | .sec => opSec i s
  | .cli => opCli i s
  | .sei => opSei i s
  | .clv => opClv i s
  | .cld => opCld i s
  | .sed => opSed i s
  | .nop => if i.operand.form = .imp then opNop i s else opNopRead i s
  | .slo => opSlo i s
  | .rla => opRla i s
  | .sre => opSre i s
  | .rra => opRra i s
  | .dcp => opDcp i s
  | .isb => opIsb i s
  | .lax => opLax i s
  | .sax => opSax i s
  | .anc => opAnc i s
  | .alr => opAlr i s
  | .arr => opArr i s
  | .axs => opAxs i s
  | .jam => opJam i s
  | .xaa => opXaa i s
  | .lxa => opLxa i s
  | .ahx => opAhx i s
  | .tas => opTas i s
  | .shy => opShy i s
  | .shx => opShx i s
  | .las => opLas i s

/-- `exec` is the shared meaning of the instruction's mnemonic. -/
theorem exec_byMnem (i : Instr) (s : State) : exec i s = byMnem i.mnem i s := by
  cases i <;> rfl

end Sys2Proof.Machine
end

