-- ==== Sys2Proof/Laws/Flags.lean ====
section
/-! SUPPORT. What the flag operations do, flag by flag. -/

namespace Sys2Proof.Machine

/-- The flags of a register file written out are those of its P. -/
@[simp] theorem flag_mk (a x y p sp : Byte) (pc : Word) (f : Flag) : Cpu.flag ⟨a, x, y, p, sp, pc⟩ f = flagOf p f := rfl

@[simp] theorem flagOf_p (c : Cpu) (f : Flag) : flagOf c.p f = c.flag f := rfl

@[simp] theorem flagOf_withFlag (f g : Flag) (v : Bool) (p : Byte) :
    flagOf (withFlag f v p) g = if g = f then v else flagOf p g := by
  cases f <;> cases g <;> cases v <;> simp [flagOf, withFlag, bitMask, Flag.bit]

@[simp] theorem flag_setFlag (f g : Flag) (v : Bool) (c : Cpu) :
    (c.setFlag f v).flag g = if g = f then v else c.flag g := flagOf_withFlag f g v c.p

/-- A status byte is its eight flags. -/
theorem status_ext {p q : Byte} (h : ∀ f, flagOf p f = flagOf q f) : p = q := by
  apply BitVec.eq_of_getLsbD_eq
  intro i hi
  have : i = 0 ∨ i = 1 ∨ i = 2 ∨ i = 3 ∨ i = 4 ∨ i = 5 ∨ i = 6 ∨ i = 7 := by omega
  rcases this with rfl | rfl | rfl | rfl | rfl | rfl | rfl | rfl
  exacts [h .c, h .z, h .i, h .d, h .b, h .u, h .v, h .n]

/-- Two different flags can be written in either order. -/
theorem withFlag_comm {f g : Flag} (h : f ≠ g) (u v : Bool) (p : Byte) :
    withFlag f u (withFlag g v p) = withFlag g v (withFlag f u p) := by
  apply status_ext
  intro k
  simp only [flagOf_withFlag]
  split_ifs with h1 h2
  · exact absurd (h1.symm.trans h2) h
  all_goals rfl

/-- A record update that keeps P keeps every flag. -/
theorem flag_eq_of_p {c d : Cpu} (h : d.p = c.p) (f : Flag) : d.flag f = c.flag f := by
  rw [Cpu.flag, h, Cpu.flag]

/-- SetZN, flag by flag. -/
@[simp] theorem flag_setZN (v : Byte) (c : Cpu) (g : Flag) :
    (c.setZN v).flag g = if g = .n then v.getLsbD 7 else if g = .z then v == 0x00#8 else c.flag g := by
  simp [Cpu.setZN]

@[simp] theorem flag_loadA (v : Byte) (c : Cpu) (g : Flag) :
    (c.loadA v).flag g = if g = .n then v.getLsbD 7 else if g = .z then v == 0x00#8 else c.flag g :=
  flag_setZN v { c with a := v } g

@[simp] theorem flag_loadX (v : Byte) (c : Cpu) (g : Flag) :
    (c.loadX v).flag g = if g = .n then v.getLsbD 7 else if g = .z then v == 0x00#8 else c.flag g :=
  flag_setZN v { c with x := v } g

@[simp] theorem flag_loadY (v : Byte) (c : Cpu) (g : Flag) :
    (c.loadY v).flag g = if g = .n then v.getLsbD 7 else if g = .z then v == 0x00#8 else c.flag g :=
  flag_setZN v { c with y := v } g

@[simp] theorem flag_compare (reg m : Byte) (c : Cpu) (g : Flag) :
    (c.compare reg m).flag g =
      if g = .n then (reg - m).getLsbD 7
      else if g = .z then reg - m == 0x00#8
      else if g = .c then decide (m ≤ reg)
      else c.flag g := by
  simp [Cpu.compare]

@[simp] theorem flag_addToA (m : Byte) (c : Cpu) (g : Flag) :
    (c.addToA m).flag g =
      if g = .n then (c.addToA m).a.getLsbD 7
      else if g = .z then (c.addToA m).a == 0x00#8
      else if g = .v then adderOverflow c.a m (c.addToA m).a
      else if g = .c then decide (0xFF < adderSum c.a m (c.flag .c))
      else c.flag g := by
  simp only [Cpu.addToA, flag_loadA, flag_setFlag, loadA_a]

theorem flagOf_restoredStatus (b : Byte) (f : Flag) :
    flagOf (restoredStatus b) f = if f = .b then false else if f = .u then true else flagOf b f := by
  cases f <;> simp [flagOf, restoredStatus, Flag.bit]

theorem flagOf_pushedStatus (p : Byte) (f : Flag) :
    flagOf (pushedStatus p) f = if f = .b ∨ f = .u then true else flagOf p f := by
  cases f <;> simp [flagOf, pushedStatus, Flag.bit]

end Sys2Proof.Machine
end

