-- ==== Sys2Proof/Laws/Operands.lean ====
section
/-! SUPPORT. One spec lemma for the resolver, for reading an operand, and for each shape of instruction: if its Bus
accesses raise no fault it answers this next state, and if one does, that Faulted state. -/

namespace Sys2Proof.Machine

/-! ## Program counter -/

theorem length_pos (i : Instr) : 0 < i.length := by simp [Instr.length]

theorem add_ofNat_pred (pc : Word) {n : Nat} (h : 0 < n) :
    pc + BitVec.ofNat 16 (n - 1) = pc - 1#16 + BitVec.ofNat 16 n := by
  obtain ⟨k, rfl⟩ : ∃ k, n = k + 1 := ⟨n - 1, by omega⟩
  apply BitVec.eq_of_toNat_eq
  simp only [BitVec.toNat_add, BitVec.toNat_sub, BitVec.toNat_ofNat, Nat.add_sub_cancel]
  omega

/-- An instruction that does not redirect leaves PC at the next instruction. -/
theorem finish_sequential (i : Instr) (s0 s : State) :
    finish i s0 (.ok .sequential s) = .next (s.setPc (nextPc i s.cpu)) := by
  simp [finish, nextPc, add_ofNat_pred _ (length_pos i)]

@[simp] theorem finish_redirected (i : Instr) (s0 s : State) : finish i s0 (.ok .redirected s) = .next s := rfl

@[simp] theorem finish_raise (i : Instr) (s0 s : State) (f : Fault) :
    finish i s0 (.raise f s) = .next (s.enterFaulted f (.opcodeAt s0.opcodeAddr)) := rfl

theorem nextPc_congr (i : Instr) {c d : Cpu} (h : c.pc = d.pc) : nextPc i c = nextPc i d := by
  simp [nextPc, h]

/-! ## Instructions with an address -/

/-- The mnemonics with a form that has no address: JMP and the implied, accumulator and relative forms. -/
def noAddressMnems : List Mnem :=
  [.tax, .tay, .txa, .tya, .tsx, .txs, .inx, .iny, .dex, .dey, .asl, .lsr, .rol, .ror, .bpl, .bmi, .bvc, .bvs, .bcc,
    .bcs, .bne, .beq, .jmp, .jsr, .rts, .rti, .brk, .pha, .pla, .php, .plp, .clc, .sec, .cli, .sei, .clv, .cld, .sed,
    .nop, .jam]

/-- Every form of the other mnemonics has an address. -/
theorem mode_ne_none {i : Instr} (h : i.mnem ∉ noAddressMnems) : i.operand.mode ≠ .noneAddressing := by
  have key : (decide (i.operand.mode ≠ .noneAddressing) || decide (i.mnem ∈ noAddressMnems)) = true := by
    cases i <;> rfl
  simpa [h] using key

/-- A shift or rotate in a form other than the accumulator's has an address. -/
theorem mode_of_shift {i : Instr} (h : i.mnem ∈ [.asl, .lsr, .rol, .ror]) (h' : i.operand ≠ .acc) :
    i.operand.mode ≠ .noneAddressing := by
  have key : (decide (i.operand.mode ≠ .noneAddressing) || decide (i.operand = .acc) ||
      decide (i.mnem ∉ [Mnem.asl, .lsr, .rol, .ror])) = true := by
    cases i <;> rfl
  simpa [h, h'] using key

/-! ## The resolver -/

theorem operandByte_ok {b : Byte} {s : State} (h : s.bus.readable s.cpu.pc = true) :
    operandByte b s = .ok b (s.logReads [s.cpu.pc]) := by simp [operandByte, memRead_ok h]

theorem operandWord_ok {w : Word} {s : State} (h : s.bus.readableAll [s.cpu.pc, s.cpu.pc + 1#16] = true) :
    operandWord w s = .ok w (s.logReads [s.cpu.pc, s.cpu.pc + 1#16]) := by simp [operandWord, memRead16_ok h]

/-- Zero page is RAM. -/
theorem region_zext16 (b : Byte) : region (zext16 b) = .ram := by
  have h : zext16 b ≤ 0x1FFF#16 := by
    rw [BitVec.le_def]
    have := b.isLt
    simp [zext16]
    omega
  simp [region, h]

theorem readable_zext16 (b : Bus) (z : Byte) : b.readable (zext16 z) = true :=
  readable_of_region (by simp [region_zext16])

theorem zpRead16_ok (p : Byte) (s : State) :
    zpRead16 p s = .ok (s.bus.peekZp16 p) (s.logReads [zext16 p, zext16 (p + 1#8)]) := by
  simp [zpRead16, memRead_ok (readable_zext16 _ _), Bus.peekZp16]

/-- EA of an operand that has an address, when the addresses it reads can be read (spec/40_execution.md R140 to
R148): the value by Peek, and only events change. -/
theorem resolve_ok (op : Byte) (o : Operand) (s : State) (hm : o.mode ≠ .noneAddressing)
    (hr : s.bus.readableAll (eaReads o s.cpu) = true) :
    resolve op o s = .ok (peekEa o s.cpu s.bus) (s.logReads (eaReads o s.cpu)) := by
  cases o <;> simp_all [Operand.mode, resolve, eaReads, peekEa, operandByte_ok, operandWord_ok, zpRead16_ok,
    Bus.readableAll]

/-- EA of an operand without an address (R149). -/
theorem resolve_none (op : Byte) (o : Operand) (s : State) (hm : o.mode = .noneAddressing) :
    resolve op o s = .raise (.unsupportedAddressingMode op s.opcodeAddr) s := by
  cases o <;> simp_all [Operand.mode, resolve]

/-- The operand value of an instruction. -/
theorem readOperand_ok (i : Instr) (s : State) (hm : i.operand.mode ≠ .noneAddressing)
    (hr : s.bus.readableAll (operandReads i.operand s.cpu s.bus) = true) :
    readOperand i s = .ok (operandValue i.operand s.cpu s.bus) (s.logReads (operandReads i.operand s.cpu s.bus)) := by
  rw [operandReads, readableAll_append, Bool.and_eq_true] at hr
  have h1 : s.bus.readable (peekEa i.operand s.cpu s.bus) = true := by simpa [Bus.readableAll] using hr.2
  have h2 := resolve_ok i.opcode i.operand s hm hr.1
  unfold readOperand operandValue operandReads ea
  rw [h2]
  split
  · simp_all [operandByte, peekEa, eaReads, memRead_ok]
  · simp [memRead_ok (s := s.logReads (eaReads i.operand s.cpu)) (a := peekEa i.operand s.cpu s.bus) (by simpa using h1)]

/-! ## The shapes -/

theorem implied_next (i : Instr) (f : Cpu → Cpu) (s : State) :
    implied i f s = .next ((s.mapCpu f).setPc (nextPc i (f s.cpu))) := by
  simp [implied, finish_sequential]

theorem withOperand_next (i : Instr) (f : Byte → Cpu → Cpu) (s : State) (hm : i.operand.mode ≠ .noneAddressing)
    (hr : s.bus.readableAll (operandReads i.operand s.cpu s.bus) = true) :
    withOperand i f s =
      .next (((s.logReads (operandReads i.operand s.cpu s.bus)).mapCpu (f (operandValue i.operand s.cpu s.bus))).setPc
        (nextPc i (f (operandValue i.operand s.cpu s.bus) s.cpu))) := by
  simp [withOperand, readOperand_ok i s hm hr, finish_sequential]

theorem storing_next (i : Instr) (v : Cpu → Byte) (s : State) (hm : i.operand.mode ≠ .noneAddressing)
    (hr : s.bus.readableAll (eaReads i.operand s.cpu) = true)
    (hw : writable (peekEa i.operand s.cpu s.bus) = true) :
    storing i v s =
      .next (((s.logReads (eaReads i.operand s.cpu)).wrote (peekEa i.operand s.cpu s.bus) (v s.cpu)).setPc
        (nextPc i s.cpu)) := by
  simp [storing, ea, resolve_ok _ _ s hm hr, memWrite_ok _ _ hw, finish_sequential]

theorem storing_rom (i : Instr) (v : Cpu → Byte) (s : State) (hm : i.operand.mode ≠ .noneAddressing)
    (hr : s.bus.readableAll (eaReads i.operand s.cpu) = true)
    (hw : writable (peekEa i.operand s.cpu s.bus) = false) :
    storing i v s =
      .next ((s.logReads (eaReads i.operand s.cpu)).enterFaulted
        (.illegalWrite (peekEa i.operand s.cpu s.bus) (v s.cpu)) (.opcodeAt s.opcodeAddr)) := by
  simp [storing, ea, resolve_ok _ _ s hm hr, memWrite_eq, hw]

/-- The first two accesses of a read-modify-write instruction. -/
theorem modifying_read (i : Instr) (f : Byte → Cpu → Byte × Cpu) (after : Byte → Cpu → Cpu) (s : State)
    (hm : i.operand.mode ≠ .noneAddressing)
    (hr : s.bus.readableAll (operandReads i.operand s.cpu s.bus) = true) :
    modifying i f after s =
      finish i s ((memWrite (peekEa i.operand s.cpu s.bus) (f (s.bus.peek (peekEa i.operand s.cpu s.bus)) s.cpu).1
        ((s.logReads (operandReads i.operand s.cpu s.bus)).setCpu
          (f (s.bus.peek (peekEa i.operand s.cpu s.bus)) s.cpu).2)).bind fun _ t =>
        .ok .sequential (t.mapCpu (after (f (s.bus.peek (peekEa i.operand s.cpu s.bus)) s.cpu).1))) := by
  rw [operandReads, readableAll_append, Bool.and_eq_true] at hr
  have h1 : s.bus.readable (peekEa i.operand s.cpu s.bus) = true := by simpa [Bus.readableAll] using hr.2
  have h2 : memRead (peekEa i.operand s.cpu s.bus) (s.logReads (eaReads i.operand s.cpu)) = _ :=
    memRead_ok (by simpa using h1)
  simp [modifying, ea, resolve_ok _ _ s hm hr.1, h2, operandReads]

theorem modifying_next (i : Instr) (f : Byte → Cpu → Byte × Cpu) (after : Byte → Cpu → Cpu) (s : State)
    (hm : i.operand.mode ≠ .noneAddressing)
    (hr : s.bus.readableAll (operandReads i.operand s.cpu s.bus) = true)
    (hw : writable (peekEa i.operand s.cpu s.bus) = true) :
    modifying i f after s =
      .next (((((s.logReads (operandReads i.operand s.cpu s.bus)).setCpu
          (f (s.bus.peek (peekEa i.operand s.cpu s.bus)) s.cpu).2).wrote (peekEa i.operand s.cpu s.bus)
          (f (s.bus.peek (peekEa i.operand s.cpu s.bus)) s.cpu).1).mapCpu
          (after (f (s.bus.peek (peekEa i.operand s.cpu s.bus)) s.cpu).1)).setPc
        (nextPc i (after (f (s.bus.peek (peekEa i.operand s.cpu s.bus)) s.cpu).1
          (f (s.bus.peek (peekEa i.operand s.cpu s.bus)) s.cpu).2))) := by
  simp [modifying_read i f after s hm hr, memWrite_ok _ _ hw, finish_sequential]

theorem modifying_rom (i : Instr) (f : Byte → Cpu → Byte × Cpu) (after : Byte → Cpu → Cpu) (s : State)
    (hm : i.operand.mode ≠ .noneAddressing)
    (hr : s.bus.readableAll (operandReads i.operand s.cpu s.bus) = true)
    (hw : writable (peekEa i.operand s.cpu s.bus) = false) :
    modifying i f after s =
      .next (((s.logReads (operandReads i.operand s.cpu s.bus)).setCpu
          (f (s.bus.peek (peekEa i.operand s.cpu s.bus)) s.cpu).2).enterFaulted
        (.illegalWrite (peekEa i.operand s.cpu s.bus) (f (s.bus.peek (peekEa i.operand s.cpu s.bus)) s.cpu).1)
        (.opcodeAt s.opcodeAddr)) := by
  simp [modifying_read i f after s hm hr, memWrite_eq, hw]

theorem branch_not_taken (i : Instr) (cond : Cpu → Bool) (s : State) (h : cond s.cpu = false) :
    branch i cond s = .next (s.setPc (nextPc i s.cpu)) := by
  simp [branch, h, finish_sequential]

theorem branch_taken (i : Instr) (cond : Cpu → Bool) (s : State) (h : cond s.cpu = true)
    (hr : s.bus.readable s.cpu.pc = true) :
    branch i cond s =
      .next ((s.logReads [s.cpu.pc]).setPc (s.cpu.pc + 1#16 + sext16 (branchOffset i.operand))) := by
  simp [branch, h, operandByte_ok hr]

theorem branch_unreadable (i : Instr) (cond : Cpu → Bool) (s : State) (h : cond s.cpu = true)
    (hr : s.bus.readable s.cpu.pc = false) :
    branch i cond s =
      .next (s.enterFaulted (.prgIndexOutOfRange s.cpu.pc (prgIndex s.bus.cart s.cpu.pc)) (.opcodeAt s.opcodeAddr)) := by
  simp [branch, h, operandByte, memRead_bad hr]

theorem pushing_next (i : Instr) (v : Cpu → Byte) (s : State) :
    pushing i v s =
      .next (((s.wrote (stackAddr s.cpu.sp) (v s.cpu)).setSp (s.cpu.sp - 1#8)).setPc (nextPc i s.cpu)) := by
  simp [pushing, push_eq, finish_sequential, nextPc]

theorem pulling_next (i : Instr) (f : Byte → Cpu → Cpu) (s : State) :
    pulling i f s =
      .next (((s.setSp (s.cpu.sp + 1#8)).mapCpu (f (s.bus.peek (stackAddr (s.cpu.sp + 1#8))))).setPc
        (nextPc i (f (s.bus.peek (stackAddr (s.cpu.sp + 1#8))) { s.cpu with sp := s.cpu.sp + 1#8 }))) := by
  simp [pulling, pop_eq, finish_sequential]

/-- Two pushes in a row. -/
theorem push16_eq (w : Word) (s : State) :
    push16 w s = .ok () ((((s.wrote (stackAddr s.cpu.sp) (highByte w)).setSp (s.cpu.sp - 1#8)).wrote
      (stackAddr (s.cpu.sp - 1#8)) (lowByte w)).setSp (s.cpu.sp - 2#8)) := by
  have e : s.cpu.sp - 1#8 - 1#8 = s.cpu.sp - 2#8 := by
    apply BitVec.eq_of_toNat_eq; simp only [BitVec.toNat_sub, BitVec.toNat_ofNat]; omega
  simp [push16, push_eq, e]

/-- Data that no access of an instruction touched is unchanged. -/
theorem sameRest_of_bus {s t : State} (h : t.bus = s.bus) (h1 : t.run = s.run) (h2 : t.policy = s.policy)
    (h3 : t.hooks = s.hooks) : SameRest s t :=
  ⟨fun a => by rw [h], by rw [h], by rw [h], h1, h2, h3⟩

end Sys2Proof.Machine
end

