-- ==== Sys2Proof/Laws/Exec.lean ====
section
/-! SUPPORT. Everything an instruction can do to the state as a whole, said once: it answers a next state; it keeps
cartridge, policy and hook calls; it only appends events; it keeps the RAM canonical and U and B as they are; it
changes the run state only by BRK or by one of three faults. -/

namespace Sys2Proof.Machine

/-! ## What a part of a step keeps -/

/-- What no access and no instruction changes, or changes only so. -/
structure Keeps (s t : State) : Prop where
  cart : t.bus.cart = s.bus.cart
  policy : t.policy = s.policy
  hooks : t.hooks = s.hooks
  diag : s.diag <+: t.diag
  ram : s.bus.ram.wf 0x800 = true → t.bus.ram.wf 0x800 = true

theorem Keeps.refl (s : State) : Keeps s s := ⟨rfl, rfl, rfl, List.prefix_refl _, id⟩

theorem Keeps.trans {s t u : State} (h : Keeps s t) (k : Keeps t u) : Keeps s u :=
  ⟨k.cart.trans h.cart, k.policy.trans h.policy, k.hooks.trans h.hooks, h.diag.trans k.diag, fun w => k.ram (h.ram w)⟩

theorem keeps_logReads (l : List Word) (s : State) : Keeps s (s.logReads l) :=
  ⟨rfl, rfl, rfl, List.prefix_append _ _, id⟩

theorem keeps_wrote (a : Word) (v : Byte) (s : State) : Keeps s (s.wrote a v) :=
  ⟨wrote_cart a v s, wrote_policy a v s, wrote_hooks a v s, by simp, fun h => wrote_ram_wf h a v⟩

theorem keeps_setCpu (c : Cpu) (s : State) : Keeps s (s.setCpu c) := ⟨rfl, rfl, rfl, List.prefix_refl _, id⟩

/-- U stays 1 and B stays 0 (spec/10_state.md R36, R37). -/
def StatusKept (c d : Cpu) : Prop := (c.flag .u = true → d.flag .u = true) ∧ (c.flag .b = false → d.flag .b = false)

theorem StatusKept.refl (c : Cpu) : StatusKept c c := ⟨id, id⟩

theorem StatusKept.trans {c d e : Cpu} (h : StatusKept c d) (k : StatusKept d e) : StatusKept c e :=
  ⟨fun x => k.1 (h.1 x), fun x => k.2 (h.2 x)⟩

/-- A fault that a Bus access raises (spec/60_exceptions.md R401, codes 3 and 5). -/
def BusFault (b : Bus) (f : Fault) : Prop :=
  (∃ a v, f = .illegalWrite a v ∧ writable a = false) ∨
    ∃ a, f = .prgIndexOutOfRange a (prgIndex b.cart a) ∧ b.readable a = false

theorem busFault_congr {b c : Bus} {f : Fault} (h : c.cart = b.cart) (hf : BusFault c f) : BusFault b f := by
  simpa only [BusFault, Bus.readable, h] using hf

/-- What a part of a step started in `s` can end in. -/
def Res.Sound {α : Type} (s : State) : Res α → Prop
  | .ok _ t => Keeps s t ∧ t.run = s.run ∧ StatusKept s.cpu t.cpu
  | .raise f t => Keeps s t ∧ BusFault s.bus f

theorem sound_ok {α : Type} (v : α) (s : State) : (Res.ok v s).Sound s := ⟨.refl s, rfl, .refl _⟩

theorem Res.Sound.bind {α β : Type} {s : State} {r : Res α} {k : α → State → Res β} (hr : r.Sound s)
    (hk : ∀ v t, (k v t).Sound t) : (r.bind k).Sound s := by
  cases r with
  | raise f t => exact hr
  | ok v t =>
    have h := hk v t
    show (k v t).Sound s
    revert h
    cases k v t with
    | ok w u => exact fun h => ⟨hr.1.trans h.1, h.2.1.trans hr.2.1, hr.2.2.trans h.2.2⟩
    | raise f u => exact fun h => ⟨hr.1.trans h.1, busFault_congr hr.1.cart h.2⟩

/-! ## The operations -/

theorem memRead_sound (a : Word) (s : State) : (memRead a s).Sound s := by
  rw [memRead_eq]
  split_ifs with h
  · exact ⟨keeps_logReads _ s, rfl, .refl _⟩
  · exact ⟨.refl s, .inr ⟨a, rfl, by simpa using h⟩⟩

theorem memWrite_sound (a : Word) (v : Byte) (s : State) : (memWrite a v s).Sound s := by
  rw [memWrite_eq]
  split_ifs with h
  · exact ⟨keeps_wrote a v s, wrote_run a v s, by simp [StatusKept]⟩
  · exact ⟨.refl s, .inl ⟨a, v, rfl, by simpa using h⟩⟩

/-- An update of the register file that keeps U and B. -/
theorem mapCpu_sound {α : Type} (v : α) {f : Cpu → Cpu} (s : State) (hf : StatusKept s.cpu (f s.cpu)) :
    (Res.ok v (s.mapCpu f)).Sound s := ⟨keeps_setCpu _ s, rfl, hf⟩

/-- A write of PC or SP. -/
theorem setPc_sound {α : Type} (v : α) (pc : Word) (s : State) : (Res.ok v (s.setPc pc)).Sound s :=
  ⟨keeps_setCpu _ s, rfl, .refl _⟩

theorem setSp_sound {α : Type} (v : α) (sp : Byte) (s : State) : (Res.ok v (s.setSp sp)).Sound s :=
  ⟨keeps_setCpu _ s, rfl, .refl _⟩

theorem memRead16_sound (a : Word) (s : State) : (memRead16 a s).Sound s :=
  (memRead_sound a s).bind fun _ t => (memRead_sound _ t).bind fun _ u => sound_ok _ u

theorem operandByte_sound (b : Byte) (s : State) : (operandByte b s).Sound s :=
  (memRead_sound _ s).bind fun _ t => sound_ok _ t

theorem operandWord_sound (w : Word) (s : State) : (operandWord w s).Sound s :=
  (memRead16_sound _ s).bind fun _ t => sound_ok _ t

theorem zpRead16_sound (p : Byte) (s : State) : (zpRead16 p s).Sound s :=
  (memRead_sound _ s).bind fun _ t => (memRead_sound _ t).bind fun _ u => sound_ok _ u

theorem resolve_sound (op : Byte) {o : Operand} (s : State) (h : o.mode ≠ .noneAddressing) :
    (resolve op o s).Sound s := by
  cases o with
  | imm b => exact sound_ok _ s
  | zp b => exact (operandByte_sound b s).bind fun _ t => sound_ok _ t
  | zpX b => exact (operandByte_sound b s).bind fun _ t => sound_ok _ t
  | zpY b => exact (operandByte_sound b s).bind fun _ t => sound_ok _ t
  | abs w => exact operandWord_sound w s
  | absX w => exact (operandWord_sound w s).bind fun _ t => sound_ok _ t
  | absY w => exact (operandWord_sound w s).bind fun _ t => sound_ok _ t
  | indX b => exact (operandByte_sound b s).bind fun _ t => zpRead16_sound _ t
  | indY b => exact (operandByte_sound b s).bind fun _ t => (zpRead16_sound _ t).bind fun _ u => sound_ok _ u
  | imp | acc | dest _ | rel _ | ind _ => exact absurd rfl h

theorem readOperand_sound (i : Instr) (s : State) (h : i.operand.mode ≠ .noneAddressing) :
    (readOperand i s).Sound s := by
  unfold readOperand
  split
  · exact operandByte_sound _ s
  · exact (resolve_sound _ s h).bind fun _ t => memRead_sound _ t

theorem push_sound (v : Byte) (s : State) : (push v s).Sound s :=
  (memWrite_sound _ v s).bind fun _ t => setSp_sound _ _ t

theorem pop_sound (s : State) : (pop s).Sound s :=
  Res.Sound.bind (setSp_sound () (s.cpu.sp + 1#8) s) fun _ t => memRead_sound (stackAddr t.cpu.sp) t

theorem push16_sound (w : Word) (s : State) : (push16 w s).Sound s :=
  (push_sound _ s).bind fun _ t => push_sound _ t

theorem pop16_sound (s : State) : (pop16 s).Sound s :=
  (pop_sound s).bind fun _ t => (pop_sound t).bind fun _ u => sound_ok _ u

theorem hookReads_sound (l : List Word) (s : State) : (hookReads l s).Sound s := by
  induction l generalizing s with
  | nil => exact sound_ok _ s
  | cons a l ih => exact (memRead_sound a s).bind fun _ t => ih t

theorem hookWrites_sound (l : List (Word × Byte)) (s : State) : (hookWrites l s).Sound s := by
  induction l generalizing s with
  | nil => exact sound_ok _ s
  | cons w l ih => exact (memWrite_sound w.1 w.2 s).bind fun _ t => ih t

theorem callHook_sound (c : HookCall) (s : State) : (callHook c s).Sound s :=
  (hookReads_sound _ s).bind fun _ t => hookWrites_sound _ t

theorem fetch_sound (s : State) : (fetch s).Sound s :=
  (memRead_sound _ s).bind fun _ t => setPc_sound _ _ t

theorem unstableAccesses_sound (stores : Bool) (a : Word) (l : List Config.UnstableAccess) (s : State) :
    (unstableAccesses stores a l s).Sound s := by
  induction l generalizing s with
  | nil => exact sound_ok _ s
  | cons x l ih =>
    cases x with
    | read => exact (memRead_sound a s).bind fun _ t => ih t
    | write v =>
      refine Res.Sound.bind ?_ fun _ t => ih t
      cases stores
      · exact sound_ok _ s
      · exact memWrite_sound a v s

/-! ## The flag operations keep U and B -/

/-- The flags U and B are the same. -/
def SameUB (c d : Cpu) : Prop := d.flag .u = c.flag .u ∧ d.flag .b = c.flag .b

theorem SameUB.kept {c d : Cpu} (h : SameUB c d) : StatusKept c d := ⟨h.1.trans, h.2.trans⟩

/-- What an instruction other than BRK ends in: it goes on, or it enters Faulted at its opcode's address. -/
def Ends (s t : State) : Prop :=
  Keeps s t ∧
    ((t.run = s.run ∧ StatusKept s.cpu t.cpu) ∨
      ∃ f, t.run = .faulted f (.opcodeAt s.opcodeAddr) ∧ BusFault s.bus f)

theorem finish_ends (i : Instr) (s : State) {r : Res Flow} (h : r.Sound s) :
    ∃ t, finish i s r = .next t ∧ Ends s t := by
  cases r with
  | ok v t =>
    cases v
    · exact ⟨t, rfl, h.1, .inl h.2⟩
    · exact ⟨_, rfl, h.1.trans (keeps_setCpu _ t), .inl h.2⟩
  | raise f t => exact ⟨_, rfl, ⟨h.1.1, h.1.2, h.1.3, h.1.4, h.1.5⟩, .inr ⟨f, rfl, h.2⟩⟩

/-! ## The shapes -/

theorem implied_ends (i : Instr) {f : Cpu → Cpu} (s : State) (hf : SameUB s.cpu (f s.cpu)) :
    ∃ t, implied i f s = .next t ∧ Ends s t := finish_ends i s (mapCpu_sound _ s hf.kept)

theorem withOperand_ends (i : Instr) {f : Byte → Cpu → Cpu} (s : State) (h : i.operand.mode ≠ .noneAddressing)
    (hf : ∀ m c, SameUB c (f m c)) : ∃ t, withOperand i f s = .next t ∧ Ends s t :=
  finish_ends i s ((readOperand_sound i s h).bind fun m t => mapCpu_sound _ t (hf m t.cpu).kept)

theorem storing_ends (i : Instr) (v : Cpu → Byte) (s : State) (h : i.operand.mode ≠ .noneAddressing) :
    ∃ t, storing i v s = .next t ∧ Ends s t :=
  finish_ends i s ((resolve_sound _ s h).bind fun _ t => (memWrite_sound _ _ t).bind fun _ u => sound_ok _ u)

theorem modifying_ends (i : Instr) {f : Byte → Cpu → Byte × Cpu} {after : Byte → Cpu → Cpu} (s : State)
    (h : i.operand.mode ≠ .noneAddressing) (hf : ∀ m c, SameUB c (f m c).2) (ha : ∀ m c, SameUB c (after m c)) :
    ∃ t, modifying i f after s = .next t ∧ Ends s t :=
  finish_ends i s ((resolve_sound _ s h).bind fun a t => (memRead_sound a t).bind fun m u =>
    Res.Sound.bind (Res.Sound.bind (mapCpu_sound () (f := fun c => (f m c).2) u (hf m u.cpu).kept) fun _ v =>
      memWrite_sound a (f m u.cpu).1 v) fun _ w => mapCpu_sound _ w (ha _ w.cpu).kept)

theorem branch_ends (i : Instr) (cond : Cpu → Bool) (s : State) : ∃ t, branch i cond s = .next t ∧ Ends s t := by
  refine finish_ends i s ?_
  split
  · exact (operandByte_sound _ s).bind fun _ t => setPc_sound _ _ t
  · exact sound_ok _ s

theorem pushing_ends (i : Instr) (v : Cpu → Byte) (s : State) : ∃ t, pushing i v s = .next t ∧ Ends s t :=
  finish_ends i s ((push_sound _ s).bind fun _ t => sound_ok _ t)

theorem pulling_ends (i : Instr) {f : Byte → Cpu → Cpu} (s : State) (hf : ∀ b c, StatusKept c (f b c)) :
    ∃ t, pulling i f s = .next t ∧ Ends s t :=
  finish_ends i s ((pop_sound s).bind fun b t => mapCpu_sound _ t (hf b t.cpu))

/-- The restored status has U = 1 and B = 0, whatever the byte. -/
theorem statusKept_restored (b : Byte) (c : Cpu) : StatusKept c { c with p := restoredStatus b } := by
  simp [StatusKept, flagOf_restoredStatus]

theorem sameUB_of_p {c d : Cpu} (h : d.p = c.p) : SameUB c d := ⟨flag_eq_of_p h _, flag_eq_of_p h _⟩

/-! ## Every instruction -/

/-- What an instruction ends in, BRK and the Unimplemented opcodes too. -/
def ExecEnds (i : Instr) (s t : State) : Prop :=
  Ends s t ∨ (i = .brk ∧ t = s.setRun .halted) ∨
    (i.implemented s.policy = false ∧ Keeps s t ∧
      t.run = .faulted (.unimplementedOpcode i.opcode s.opcodeAddr) (.opcodeAt s.opcodeAddr))

/-- The Unimplemented opcodes (spec/30_encoding.md R107). -/
theorem implemented_eq_false (i : Instr) (policy : Config.UnstablePolicy) :
    i.implemented policy = false ↔ i.mnem = .jam ∨ (i.mnem ∈ unstableMnems ∧ policy = .fault) := by
  have key := (Laws.TableRow.all i).2.2.1
  unfold Laws.TableRow.column at key
  unfold Instr.implemented
  rw [key]
  by_cases h1 : i.mnem = .jam
  · simp [h1]
  · by_cases h2 : i.mnem ∈ unstableMnems <;> cases policy <;> simp [h1, h2]

theorem unimplemented_ends (i : Instr) (s : State) (h : i.implemented s.policy = false) :
    ∃ t, unimplemented i s = .next t ∧ ExecEnds i s t :=
  ⟨_, rfl, .inr (.inr ⟨h, ⟨rfl, rfl, rfl, List.prefix_refl _, id⟩, rfl⟩)⟩

theorem unstable_ends (i : Instr) (stores : Bool) {write : Config.UnstableEffect → Cpu → Cpu} (s : State)
    (h : i.operand.mode ≠ .noneAddressing) (hi : s.policy = .fault → i.implemented s.policy = false)
    (hw : ∀ e c, SameUB c (write e c)) : ∃ t, unstable i stores write s = .next t ∧ ExecEnds i s t := by
  unfold unstable
  split
  · exact unimplemented_ends i s (hi ‹_›)
  · obtain ⟨t, h1, h2⟩ := finish_ends i s ((resolve_sound _ s h).bind fun a t =>
      (unstableAccesses_sound stores a (Config.unstableSem i.opcode s.cpu s.bus).accesses t).bind fun _ u =>
        mapCpu_sound (f := write (Config.unstableSem i.opcode s.cpu s.bus)) Flow.sequential u (hw _ u.cpu).kept)
    exact ⟨t, h1, .inl h2⟩

theorem shifting_ends (i : Instr) {f : Byte → Cpu → Byte × Cpu} (s : State)
    (h : i.mnem ∈ [Mnem.asl, .lsr, .rol, .ror]) (hf : ∀ m c, SameUB c (f m c).2) :
    ∃ t, shifting i f s = .next t ∧ Ends s t := by
  unfold shifting
  split
  · refine implied_ends i s ?_
    have := hf s.cpu.a s.cpu
    simpa [SameUB, onAccumulator] using this
  · rename_i h'
    exact modifying_ends i s (mode_of_shift h h') hf fun m c => by simp [SameUB]

theorem brk_of_mnem {i : Instr} (h : i.mnem = .brk) : i = .brk := by
  cases i <;> first | rfl | exact Mnem.noConfusion h

theorem brk_eq (s : State) : byMnem .brk .brk s = .next (s.setRun .halted) := by
  simp [byMnem, opBrk, finish_sequential, nextPc, Instr.length, Instr.operand, Instr.parts, Operand.bytes,
    State.setPc, State.setRun]

/-- A NOP with an operand has an address. -/
theorem nop_mode {i : Instr} (h : i.mnem = .nop) (h' : ¬i.operand.form = .imp) : i.operand.mode ≠ .noneAddressing := by
  have key : (decide (i.operand.mode ≠ .noneAddressing) || decide (i.operand.form = .imp) ||
      decide (i.mnem ≠ .nop)) = true := by
    cases i <;> rfl
  simpa [h, h'] using key

/-- Instructions on the register file alone. -/
theorem registers_end (i : Instr) (s : State) (m : Mnem) (hm : i.mnem = m)
    (h : m ∈ [Mnem.tax, .tay, .txa, .tya, .tsx, .inx, .iny, .dex, .dey, .clc, .sec, .cli, .sei, .clv, .cld, .sed, .txs]) :
    ∃ t, byMnem m i s = .next t ∧ Ends s t := by
  simp only [List.mem_cons, List.not_mem_nil, or_false] at h
  rcases h with rfl | rfl | rfl | rfl | rfl | rfl | rfl | rfl | rfl | rfl | rfl | rfl | rfl | rfl | rfl | rfl | rfl <;>
    exact implied_ends i s (by simp [SameUB])

/-- The branches. -/
theorem branches_end (i : Instr) (s : State) (m : Mnem) (hm : i.mnem = m)
    (h : m ∈ [Mnem.bpl, .bmi, .bvc, .bvs, .bcc, .bcs, .bne, .beq]) :
    ∃ t, byMnem m i s = .next t ∧ Ends s t := by
  simp only [List.mem_cons, List.not_mem_nil, or_false] at h
  rcases h with rfl | rfl | rfl | rfl | rfl | rfl | rfl | rfl
  · exact branch_ends i (fun c => !c.flag .n) s
  · exact branch_ends i (fun c => c.flag .n) s
  · exact branch_ends i (fun c => !c.flag .v) s
  · exact branch_ends i (fun c => c.flag .v) s
  · exact branch_ends i (fun c => !c.flag .c) s
  · exact branch_ends i (fun c => c.flag .c) s
  · exact branch_ends i (fun c => !c.flag .z) s
  · exact branch_ends i (fun c => c.flag .z) s

/-- Calls, returns, pushes and pulls. -/
theorem stack_ends (i : Instr) (s : State) (m : Mnem) (hm : i.mnem = m)
    (h : m ∈ [Mnem.jsr, .rts, .rti, .pha, .php, .pla, .plp]) :
    ∃ t, byMnem m i s = .next t ∧ Ends s t := by
  simp only [List.mem_cons, List.not_mem_nil, or_false] at h
  rcases h with rfl | rfl | rfl | rfl | rfl | rfl | rfl
  · exact finish_ends i s ((push16_sound _ s).bind fun _ t => (memRead16_sound _ t).bind fun _ u => setPc_sound _ _ u)
  · exact finish_ends i s ((pop16_sound s).bind fun _ t => setPc_sound _ _ t)
  · refine finish_ends i s ((pop_sound s).bind fun b t => ?_)
    have h := mapCpu_sound () (f := fun c => { c with p := restoredStatus b }) t (statusKept_restored b t.cpu)
    have k := h.bind (k := fun _ u => pop16 u) fun _ u => pop16_sound u
    exact Res.Sound.bind k fun _ v => setPc_sound _ _ v
  · exact pushing_ends i (fun c => c.a) s
  · exact pushing_ends i (fun c => pushedStatus c.p) s
  · exact pulling_ends i s fun b c => (show SameUB c (c.loadA b) by simp [SameUB]).kept
  · exact pulling_ends i s fun b c => statusKept_restored b c

/-- Instructions that read an operand. -/
theorem reads_end (i : Instr) (s : State) (m : Mnem) (hm : i.mnem = m)
    (h : m ∈ [Mnem.lda, .ldx, .ldy, .adc, .sbc, .and, .ora, .eor, .cmp, .cpx, .cpy, .lax, .bit, .anc, .alr, .arr, .axs]) :
    ∃ t, byMnem m i s = .next t ∧ Ends s t := by
  simp only [List.mem_cons, List.not_mem_nil, or_false] at h
  have hmode : i.operand.mode ≠ .noneAddressing := mode_ne_none (by
    subst hm
    rcases h with h | h | h | h | h | h | h | h | h | h | h | h | h | h | h | h | h <;> rw [h] <;> decide)
  rcases h with rfl | rfl | rfl | rfl | rfl | rfl | rfl | rfl | rfl | rfl | rfl | rfl | rfl | rfl | rfl | rfl | rfl <;>
    exact withOperand_ends i s hmode fun m c => by
      simp [SameUB, bitEffect, ancEffect, alrEffect, arrEffect, axsEffect, shiftR]

/-- The stores. -/
theorem stores_end (i : Instr) (s : State) (m : Mnem) (hm : i.mnem = m)
    (h : m ∈ [Mnem.sta, .stx, .sty, .sax]) :
    ∃ t, byMnem m i s = .next t ∧ Ends s t := by
  simp only [List.mem_cons, List.not_mem_nil, or_false] at h
  have hmode : i.operand.mode ≠ .noneAddressing :=
    mode_ne_none (by subst hm; rcases h with h | h | h | h <;> rw [h] <;> decide)
  rcases h with rfl | rfl | rfl | rfl
  · exact storing_ends i (fun c => c.a) s hmode
  · exact storing_ends i (fun c => c.x) s hmode
  · exact storing_ends i (fun c => c.y) s hmode
  · exact storing_ends i (fun c => c.a &&& c.x) s hmode

/-- The read-modify-write instructions. -/
theorem modifies_end (i : Instr) (s : State) (m : Mnem) (hm : i.mnem = m)
    (h : m ∈ [Mnem.inc, .dec, .dcp, .isb, .slo, .rla, .sre, .rra]) :
    ∃ t, byMnem m i s = .next t ∧ Ends s t := by
  simp only [List.mem_cons, List.not_mem_nil, or_false] at h
  have hmode : i.operand.mode ≠ .noneAddressing :=
    mode_ne_none (by subst hm; rcases h with h | h | h | h | h | h | h | h <;> rw [h] <;> decide)
  rcases h with rfl | rfl | rfl | rfl | rfl | rfl | rfl | rfl <;>
    simp only [byMnem, opInc, opDec, opDcp, opIsb, opSlo, opRla, opSre, opRra] <;>
    exact modifying_ends i s hmode (fun m c => by simp [SameUB, incByte, decByte, shiftL, shiftR, rotL, rotR])
      fun m c => by simp [SameUB]

/-- The shifts and rotates. -/
theorem shifts_end (i : Instr) (s : State) (m : Mnem) (hm : i.mnem = m)
    (h : m ∈ [Mnem.asl, .lsr, .rol, .ror]) :
    ∃ t, byMnem m i s = .next t ∧ Ends s t := by
  simp only [List.mem_cons, List.not_mem_nil, or_false] at h
  have h' : i.mnem ∈ [Mnem.asl, .lsr, .rol, .ror] := by simpa [hm] using h
  rcases h with rfl | rfl | rfl | rfl <;>
    exact shifting_ends i s h' fun m c => by simp [SameUB, shiftL, shiftR, rotL, rotR]

/-- The unstable opcodes. -/
theorem unstables_end (i : Instr) (s : State) (m : Mnem) (hm : i.mnem = m)
    (h : m ∈ [Mnem.xaa, .lxa, .las, .ahx, .shy, .shx, .tas]) :
    ∃ t, byMnem m i s = .next t ∧ ExecEnds i s t := by
  simp only [List.mem_cons, List.not_mem_nil, or_false] at h
  have hmode : i.operand.mode ≠ .noneAddressing :=
    mode_ne_none (by subst hm; rcases h with h | h | h | h | h | h | h <;> rw [h] <;> decide)
  have hu : s.policy = .fault → i.implemented s.policy = false := fun hp =>
    (implemented_eq_false i s.policy).2
      (.inr ⟨by subst hm; rcases h with h | h | h | h | h | h | h <;> rw [h] <;> decide, hp⟩)
  rcases h with rfl | rfl | rfl | rfl | rfl | rfl | rfl
  · exact unstable_ends i false (write := fun e c => unstableZN e { c with a := e.a }) s hmode hu fun e c => by
      simp [SameUB, unstableZN]
  · exact unstable_ends i false (write := fun e c => unstableZN e { c with a := e.a, x := e.x }) s hmode hu fun e c => by
      simp [SameUB, unstableZN]
  · exact unstable_ends i false (write := fun e c => unstableZN e { c with a := e.a, x := e.x, sp := e.sp }) s hmode hu
      fun e c => by simp [SameUB, unstableZN]
  · exact unstable_ends i true (write := fun _ c => c) s hmode hu fun e c => ⟨rfl, rfl⟩
  · exact unstable_ends i true (write := fun _ c => c) s hmode hu fun e c => ⟨rfl, rfl⟩
  · exact unstable_ends i true (write := fun _ c => c) s hmode hu fun e c => ⟨rfl, rfl⟩
  · exact unstable_ends i true (write := fun e c => { c with sp := e.sp }) s hmode hu fun e c => ⟨rfl, rfl⟩

/-- Everything an instruction can do to the state as a whole. -/
theorem exec_ends (i : Instr) (s : State) : ∃ t, exec i s = .next t ∧ ExecEnds i s t := by
  have lift : ∀ {o : Out}, (∃ t, o = .next t ∧ Ends s t) → ∃ t, o = .next t ∧ ExecEnds i s t :=
    fun ⟨t, h1, h2⟩ => ⟨t, h1, .inl h2⟩
  rw [exec_byMnem]
  cases hm : i.mnem
  case jmp =>
    by_cases h : i.operand.form = .ind
    · rw [show byMnem .jmp i s = opJmpInd i s from if_pos h]
      exact lift (finish_ends i s ((operandWord_sound _ s).bind fun _ t => (memRead_sound _ t).bind fun _ u =>
        (memRead_sound _ u).bind fun _ v => setPc_sound _ _ v))
    · rw [show byMnem .jmp i s = opJmpAbs i s from if_neg h]
      exact lift (finish_ends i s ((operandWord_sound _ s).bind fun _ t => setPc_sound _ _ t))
  case brk =>
    obtain rfl : i = .brk := brk_of_mnem hm
    exact ⟨_, brk_eq s, .inr (.inl ⟨rfl, rfl⟩)⟩
  case nop =>
    by_cases h : i.operand.form = .imp
    · rw [show byMnem .nop i s = opNop i s from if_pos h]
      exact lift (implied_ends i s ⟨rfl, rfl⟩)
    · rw [show byMnem .nop i s = opNopRead i s from if_neg h]
      exact lift (withOperand_ends i s (nop_mode hm h) fun _ c => ⟨rfl, rfl⟩)
  case jam => exact unimplemented_ends i s ((implemented_eq_false i s.policy).2 (.inl hm))
  all_goals
    first
      | exact lift (registers_end i s _ hm (by decide))
      | exact lift (branches_end i s _ hm (by decide))
      | exact lift (stack_ends i s _ hm (by decide))
      | exact lift (reads_end i s _ hm (by decide))
      | exact lift (stores_end i s _ hm (by decide))
      | exact lift (modifies_end i s _ hm (by decide))
      | exact lift (shifts_end i s _ hm (by decide))
      | exact unstables_end i s _ hm (by decide)

end Sys2Proof.Machine
end

