-- ==== Sys2Proof/Laws/Host.lean ====
section
/-! SUPPORT. The host's backdoor writes keep every memory in its canonical form, a new session has it, and `State.reset` is
a harness session after its reset. The platform's hook call never faults. -/

namespace Sys2Proof.Machine

/-- Placing a byte keeps the canonical form. -/
theorem Bus.wf_place {b : Bus} (h : b.wf = true) (a : Word) (v : Byte) : (b.place a v).wf = true := by
  simp only [Bus.wf, Bool.and_eq_true] at h
  unfold Bus.place
  split
  · simp [Bus.wf, h, Memory.wf_write (ramIndex_lt a) h.1.1]
  · split_ifs with hi
    · have := Memory.wf_write (v := v) hi h.1.2
      simp only [Bus.wf, Bool.and_eq_true]
      exact ⟨⟨h.1.1, this⟩, h.2⟩
    · simp [Bus.wf, h]
  all_goals simp [Bus.wf, h]

/-- Setting the reset vector keeps the canonical form. -/
theorem Bus.wf_setVector {b : Bus} (h : b.wf = true) (o : Word) : (b.setVector o).wf = true :=
  Bus.wf_place (Bus.wf_place h _ _) _ _

/-- Loading a program keeps the canonical form. -/
theorem Bus.wf_loadBytes {b c : Bus} (h : b.wf = true) (a : Nat) (l : List Byte) (hl : loadBytes a l b = some c) :
    c.wf = true := by
  induction l generalizing a b with
  | nil =>
    cases hl
    exact h
  | cons v l ih =>
    simp only [loadBytes] at hl
    split_ifs at hl
    exact ih (Bus.wf_place h _ _) _ hl

/-- Placing an instruction for the next step keeps the canonical form. -/
theorem wf_withFetchWord {s : State} (h : s.bus.wf = true) (nbits w : Nat) : (s.withFetchWord nbits w).bus.wf = true :=
  Bus.wf_place (Bus.wf_place (Bus.wf_place h _ _) _ _) _ _

/-- The RAM that RAM_INIT gives is in canonical form. -/
theorem wf_initialRam (ramInit : Nat → Byte) : (initialRam ramInit).wf 0x800 = true :=
  Memory.wf_ofBytes _ _ _ (by simp)

/-- The RAM that RAM_INIT gives reads as RAM_INIT. -/
theorem read_initialRam (ramInit : Nat → Byte) {k : Nat} (h : k < 0x800) : (initialRam ramInit).read k = ramInit k := by
  have hk : k < ((List.range 0x800).map ramInit).length := by rwa [List.length_map, List.length_range]
  have hr := Memory.read_ofBytes 0 ((List.range 0x800).map ramInit) k
  rwa [Nat.zero_add, List.getD_eq_getElem _ _ hk, List.getElem_map, List.getElem_range] at hr

/-- A RAM that is zero everywhere lists nothing. -/
theorem ofBytes_zero (k n : Nat) : Memory.ofBytes k (List.replicate n 0x00#8) = [] := by
  induction n generalizing k with
  | zero => rfl
  | succ n ih => exact ih (k + 1)

/-- RAM_INIT all zero gives the RAM that lists nothing. -/
theorem initialRam_zero : initialRam (fun _ => 0x00#8) = [] := by
  unfold initialRam
  rw [List.map_const', List.length_range]
  exact ofBytes_zero 0 _

/-- What a new session holds (spec/70_reset_and_hazards.md R460). -/
theorem newSession_ok (p : Config.Params) {src : Source} {cart : Cart} (c : Cpu) (h : src.cart p = .ok cart) :
    newSession p src c = .next
      { cpu := c, bus := { ram := initialRam p.ramInit, cart := cart }, run := .halted, diag := [],
        policy := p.unstablePolicy, hooks := [] } := by
  simp [newSession, h]

/-- A reset whose vector is readable. -/
theorem resetSession_ok {s : State} (h : s.bus.readableAll [Config.resetVector, Config.resetVector + 1#16] = true) :
    resetSession s =
      { s.logReads [Config.resetVector, Config.resetVector + 1#16] with
        cpu := Cpu.reset (wordOf (s.bus.peek (Config.resetVector + 1#16)) (s.bus.peek Config.resetVector)),
        run := .running } := by
  simp only [resetSession, memRead16_ok h]

/-- `State.reset` is the harness session at the defaults, with RAM_INIT all zero, after its first reset, whatever the
registers were before it (log entry 1). -/
theorem reset_is_default_session (c : Cpu) :
    ∃ s, newSession { ramInit := fun _ => 0x00#8 } .harness c = .next s ∧ resetSession s = State.reset := by
  refine ⟨_, newSession_ok _ c rfl, ?_⟩
  dsimp only
  rw [initialRam_zero, resetSession_ok (by dsimp only; decide)]
  simp only [State.logReads, State.reset, State.mk.injEq]
  decide

/-- The platform's writes go to zero page, which is RAM, for every choice of its two addresses (spec/60_exceptions.md
R425). -/
theorem platformHook_writable (p : Config.Params) (rng : Byte) (key : Option Byte) :
    (platformHook p rng key).writes.all (fun w => writable w.1) = true := by
  cases key <;> simp [platformHook, writable, region_zext16]

end Sys2Proof.Machine
end

