-- ==== Sys2Proof/Tests/Slice0.lean ====
section
/-! SUPPORT. The model's own tests: the well-formedness smoke test, decoding, one step of each instruction, loader, host
operations and tracer, and a witness for every obligation that has hypotheses. The expected values are the spec's: the
id of the vector in spec/95_test_vectors.md, or the rule, stands at each test. A vector of one instruction and a BRK
gives the state after its first step: the same registers, and PC one less. -/

namespace Sys2Proof.Tests

open Sys2Proof.Machine

/-! ## Helpers -/

/-- A register file with PC = 0x0600. -/
def regs (a x y p sp : Byte) : Cpu := { a := a, x := x, y := y, p := p, sp := sp, pc := 0x0600#16 }

/-- A Running state on the harness cartridge with a register file, a program at 0x0600 and listed bytes of RAM. -/
def start (c : Cpu) (program : List Byte) (ram : List (Nat × Byte)) : State :=
  { State.reset with
    cpu := c
    bus := { ram := ram.foldr (fun w m => m.write w.1 w.2) (Memory.ofBytes 0x600 program), cart := Config.defaultHarnessCart } }

/-- The registers an outcome leaves. -/
def cpuOf : Out → Option Cpu
  | .next t => some t.cpu
  | _ => none

/-- The run state an outcome leaves. -/
def runOf : Out → Option Run
  | .next t => some t.run
  | _ => none

/-- Why an outcome is refused. -/
def refusalOf : Out → Option Refusal
  | .refused r => some r
  | _ => none

/-- The registers after one step. -/
def cpuAfter (s : State) : Option Cpu := cpuOf (step s)

/-- The run state after one step. -/
def runAfter (s : State) : Option Run := runOf (step s)

/-- The registers, a byte of memory and the events after one step. -/
def after (a : Word) (s : State) : Option (Cpu × Byte × List Event) :=
  match step s with
  | .next t => some (t.cpu, t.bus.peek a, t.diag)
  | _ => none

/-! ## Well-formedness: one ill-formed term for each check of R103, R106 and R109, refused -/

/-- The row of LDA immediate. -/
def goodRow : Row := rowOf 0xA9

theorem test_wf_good_row : goodRow.wf = true := by decide

theorem test_wf_refuses_length : ({ goodRow with length := 3 } : Row).wf = false := by decide

theorem test_wf_refuses_mode : ({ goodRow with mode := .zeroPage } : Row).wf = false := by decide

theorem test_wf_refuses_rule : ({ goodRow with rule := 999 } : Row).wf = false := by decide

theorem test_wf_refuses_official : ({ goodRow with implemented := .no } : Row).wf = false := by decide

theorem test_wf_refuses_duplicate_key : tableWf (opcodeTable.set 0xA5 goodRow) = false := by decide +kernel

theorem test_wf_refuses_short_table : tableWf (opcodeTable.drop 1) = false := by decide +kernel

theorem test_wf_refuses_other_row : goodRow.describes .lda 0xA5 .imm .immediate 2 = false := by decide

theorem test_wf_refuses_other_form : goodRow.describes .lda 0xA9 .zp .zeroPage 2 = false := by decide

/-- R104, R109. -/
theorem test_table_wf : tableWf opcodeTable = true := by decide +kernel

/-- The lookup is the table, in order. -/
theorem test_row_of : (List.range 256).map (fun k => rowOf (BitVec.ofNat 8 k)) = opcodeTable := by decide +kernel

/-- R106, R110: 151 official opcodes, 85 stable unofficial ones, 8 unstable ones and 12 JAMs. R106 itself counts 82 stable
ones and 18 NOPs with operands, where R110 and R344 list 85 and 21 (log entry 13). -/
theorem test_class_counts :
    (opcodeTable.filter (fun r => r.official && r.implemented == .yes)).length = 151 ∧
    (opcodeTable.filter (fun r => !r.official && r.implemented == .yes)).length = 85 ∧
    (opcodeTable.filter (fun r => !r.official && r.implemented == .policy)).length = 8 ∧
    (opcodeTable.filter (fun r => !r.official && r.implemented == .no)).length = 12 := by decide +kernel

/-! ## Decoding: a word of each form, written out from R101, R103 and the instruction's rule. That each of the 256 opcodes
decodes to its own constructor is `Laws.TableRow`, constructor by constructor. -/

theorem test_decode_imp : decode [0b11101000, 0x11] = .ok (.inx, [0x11]) := by decide

theorem test_decode_acc : decode [0b01101010] = .ok (.rorAcc, []) := by decide

theorem test_decode_imm : decode [0b11001001, 0x10, 0x22] = .ok (.cmpImm 0x10, [0x22]) := by decide

theorem test_decode_zp : decode [0b10000101, 0x40] = .ok (.staZp 0x40, []) := by decide

theorem test_decode_zpx : decode [0b00110110, 0x0F] = .ok (.rolZpX 0x0F, []) := by decide

theorem test_decode_zpy : decode [0b10010110, 0xFF] = .ok (.stxZpY 0xFF, []) := by decide

theorem test_decode_abs : decode [0b00101100, 0x00, 0x02] = .ok (.bitAbs 0x0200, []) := by decide

theorem test_decode_absx : decode [0b01111110, 0x34, 0x12] = .ok (.rorAbsX 0x1234, []) := by decide

theorem test_decode_absy : decode [0b10111001, 0x00, 0x03] = .ok (.ldaAbsY 0x0300, []) := by decide

theorem test_decode_indx : decode [0b01000001, 0x10] = .ok (.eorIndX 0x10, []) := by decide

theorem test_decode_indy : decode [0b11010011, 0x20] = .ok (.dcpIndY 0x20, []) := by decide

theorem test_decode_rel : decode [0b11010000, 0xFB] = .ok (.bne 0xFB, []) := by decide

theorem test_decode_dest : decode [0b00100000, 0x10, 0x06] = .ok (.jsr 0x0610, []) := by decide

theorem test_decode_ind : decode [0b01101100, 0xFF, 0x02] = .ok (.jmpInd 0x02FF, []) := by decide

theorem test_decode_unstable : decode [0b10010011, 0x20] = .ok (.ahxIndY 0x20, []) := by decide

theorem test_decode_short : decode [0b00100000, 0x10] = .error (.missingOperand 0x20) := by decide

theorem test_decode_table_word : decodeTableWord 24 0x0235AD = some (.ldaAbs 0x0235) := by decide

/-- Bits above `nbits` are zero. -/
theorem test_decode_table_word_short : decodeTableWord 8 0xFFFFAD = some (.ldaAbs 0x0000) := by decide

/-! ## One step of an instruction -/

/-- T2.1.4. -/
theorem test_lda_zpx_wraps : cpuAfter (start (regs 0x00 0xFF 0x00 0x24 0xFD) [0xB5, 0x80] [(0x7F, 0x33)]) =
    some ⟨0x33, 0xFF, 0x00, 0x24, 0xFD, 0x0602⟩ := by decide

/-- T2.1.11. -/
theorem test_lda_indy_pointer_wraps : cpuAfter (start (regs 0x00 0x00 0x10 0x24 0xFD) [0xB1, 0xFF]
      [(0x0, 0x02), (0xFF, 0xF8), (0x308, 0x11)]) =
    some ⟨0x11, 0x00, 0x10, 0x24, 0xFD, 0x0602⟩ := by decide

/-- T2.1.12. -/
theorem test_ldx_zpy : cpuAfter (start (regs 0x00 0x00 0x20 0x24 0xFD) [0xB6, 0xF0] [(0x10, 0x80)]) =
    some ⟨0x00, 0x80, 0x20, 0xA4, 0xFD, 0x0602⟩ := by decide

/-- T2.1.13. -/
theorem test_ldy_absx : cpuAfter (start (regs 0x00 0x03 0x00 0x24 0xFD) [0xBC, 0x00, 0x02] [(0x203, 0x00)]) =
    some ⟨0x00, 0x03, 0x00, 0x26, 0xFD, 0x0603⟩ := by decide

/-- T2.1.14. -/
theorem test_lda_ppu_stub : after 0x0000 (start (regs 0x55 0x00 0x00 0x24 0xFD) [0xAD, 0x02, 0x20] []) =
    some (⟨0x00, 0x00, 0x00, 0x26, 0xFD, 0x0603⟩, 0x00, [.ppuStubRead 0x2002]) := by decide

/-- T2.1.18. -/
theorem test_sta_zp : after 0x0040 (start (regs 0x81 0x00 0x00 0x26 0xFD) [0x85, 0x40] []) =
    some (⟨0x81, 0x00, 0x00, 0x26, 0xFD, 0x0602⟩, 0x81, []) := by decide

/-- T2.1.21. -/
theorem test_sta_unmapped : after 0x0000 (start (regs 0x77 0x00 0x00 0x24 0xFD) [0x8D, 0x17, 0x40] []) =
    some (⟨0x77, 0x00, 0x00, 0x24, 0xFD, 0x0603⟩, 0x00, [.invalidAddressWrite 0x4017 0x77]) := by decide

/-- T2.1.24. -/
theorem test_stx_zpy : after 0x0001 (start (regs 0x00 0x42 0x02 0x24 0xFD) [0x96, 0xFF] []) =
    some (⟨0x00, 0x42, 0x02, 0x24, 0xFD, 0x0602⟩, 0x42, []) := by decide

/-- T2.1.25. -/
theorem test_sty_zpx : after 0x0011 (start (regs 0x00 0x01 0x99 0x24 0xFD) [0x94, 0x10] []) =
    some (⟨0x00, 0x01, 0x99, 0x24, 0xFD, 0x0602⟩, 0x99, []) := by decide

/-- T2.1.22. -/
theorem test_sta_rom_faults : runAfter (start (regs 0x77 0x00 0x00 0x24 0xFD) [0x8D, 0x00, 0x80, 0x00] []) =
    some (.faulted (.illegalWrite 0x8000 0x77) (.opcodeAt 0x0600)) := by decide

/-- T2.1.26. -/
theorem test_tax : cpuAfter (start (regs 0x00 0x12 0x00 0x24 0xFD) [0xAA] []) =
    some ⟨0x00, 0x00, 0x00, 0x26, 0xFD, 0x0601⟩ := by decide

/-- T2.1.27. -/
theorem test_tay : cpuAfter (start (regs 0xF0 0x00 0x00 0x24 0xFD) [0xA8] []) =
    some ⟨0xF0, 0x00, 0xF0, 0xA4, 0xFD, 0x0601⟩ := by decide

/-- T2.1.28. -/
theorem test_txa : cpuAfter (start (regs 0x00 0x7F 0x00 0x24 0xFD) [0x8A] []) =
    some ⟨0x7F, 0x7F, 0x00, 0x24, 0xFD, 0x0601⟩ := by decide

/-- T2.1.29. -/
theorem test_tya : cpuAfter (start (regs 0x00 0x00 0x80 0x24 0xFD) [0x98] []) =
    some ⟨0x80, 0x00, 0x80, 0xA4, 0xFD, 0x0601⟩ := by decide

/-- T2.1.30. -/
theorem test_tsx : cpuAfter (start (regs 0x00 0x00 0x00 0x24 0xFD) [0xBA] []) =
    some ⟨0x00, 0xFD, 0x00, 0xA4, 0xFD, 0x0601⟩ := by decide

/-- T2.1.31. -/
theorem test_txs : cpuAfter (start (regs 0x00 0x00 0x00 0xA4 0xFD) [0x9A] []) =
    some ⟨0x00, 0x00, 0x00, 0xA4, 0x00, 0x0601⟩ := by decide

/-- T2.2.1. -/
theorem test_adc_carry : cpuAfter (start (regs 0xFF 0x00 0x00 0x24 0xFD) [0x69, 0x01] []) =
    some ⟨0x00, 0x00, 0x00, 0x27, 0xFD, 0x0602⟩ := by decide

/-- T2.2.4. -/
theorem test_adc_overflow : cpuAfter (start (regs 0x7F 0x00 0x00 0x25 0xFD) [0x69, 0x00] []) =
    some ⟨0x80, 0x00, 0x00, 0xE4, 0xFD, 0x0602⟩ := by decide

/-- T2.2.8. -/
theorem test_sbc_overflow : cpuAfter (start (regs 0x7F 0x00 0x00 0x25 0xFD) [0xE9, 0xFF] []) =
    some ⟨0x80, 0x00, 0x00, 0xE4, 0xFD, 0x0602⟩ := by decide

/-- T2.2.9. -/
theorem test_sbc_borrow : cpuAfter (start (regs 0x05 0x00 0x00 0x24 0xFD) [0xE9, 0x05] []) =
    some ⟨0xFF, 0x00, 0x00, 0xA4, 0xFD, 0x0602⟩ := by decide

/-- T2.2.14. -/
theorem test_and_indy : cpuAfter (start (regs 0xFF 0x00 0x00 0x24 0xFD) [0x31, 0x20]
      [(0x20, 0x00), (0x21, 0x03), (0x300, 0x81)]) =
    some ⟨0x81, 0x00, 0x00, 0xA4, 0xFD, 0x0602⟩ := by decide

/-- T2.2.15. -/
theorem test_ora : cpuAfter (start (regs 0x01 0x00 0x00 0x24 0xFD) [0x09, 0x80] []) =
    some ⟨0x81, 0x00, 0x00, 0xA4, 0xFD, 0x0602⟩ := by decide

/-- T2.2.17. -/
theorem test_eor_indx : cpuAfter (start (regs 0x0F 0x02 0x00 0x24 0xFD) [0x41, 0x10]
      [(0x12, 0x00), (0x13, 0x04), (0x400, 0xF0)]) =
    some ⟨0xFF, 0x02, 0x00, 0xA4, 0xFD, 0x0602⟩ := by decide

/-- T2.2.18. -/
theorem test_bit : cpuAfter (start (regs 0x01 0x00 0x00 0x24 0xFD) [0x24, 0x10] [(0x10, 0xC0)]) =
    some ⟨0x01, 0x00, 0x00, 0xE6, 0xFD, 0x0602⟩ := by decide

/-- T2.2.22. -/
theorem test_cmp_unsigned : cpuAfter (start (regs 0xFF 0x00 0x00 0x24 0xFD) [0xC9, 0x01] []) =
    some ⟨0xFF, 0x00, 0x00, 0xA5, 0xFD, 0x0602⟩ := by decide

/-- T2.2.21. -/
theorem test_cmp_less : cpuAfter (start (regs 0x10 0x00 0x00 0x24 0xFD) [0xC9, 0x20] []) =
    some ⟨0x10, 0x00, 0x00, 0xA4, 0xFD, 0x0602⟩ := by decide

/-- T2.2.24. -/
theorem test_cpx : cpuAfter (start (regs 0x00 0x06 0x00 0x24 0xFD) [0xE0, 0x05] []) =
    some ⟨0x00, 0x06, 0x00, 0x25, 0xFD, 0x0602⟩ := by decide

/-- T2.2.25. -/
theorem test_cpy : cpuAfter (start (regs 0x00 0x00 0x7F 0x24 0xFD) [0xC0, 0x80] []) =
    some ⟨0x00, 0x00, 0x7F, 0xA4, 0xFD, 0x0602⟩ := by decide

/-- T2.2.27. -/
theorem test_inc_absx : after 0x0200 (start (regs 0x00 0x01 0x00 0x24 0xFD) [0xFE, 0xFF, 0x01] [(0x200, 0x7F)]) =
    some (⟨0x00, 0x01, 0x00, 0xA4, 0xFD, 0x0603⟩, 0x80, []) := by decide

/-- T2.2.28. -/
theorem test_dec_wraps : after 0x0010 (start (regs 0x00 0x00 0x00 0x24 0xFD) [0xC6, 0x10] [(0x10, 0x00)]) =
    some (⟨0x00, 0x00, 0x00, 0xA4, 0xFD, 0x0602⟩, 0xFF, []) := by decide

/-- T2.2.30. -/
theorem test_inx : cpuAfter (start (regs 0x00 0xFF 0x00 0x24 0xFD) [0xE8] []) =
    some ⟨0x00, 0x00, 0x00, 0x26, 0xFD, 0x0601⟩ := by decide

/-- T2.2.31. -/
theorem test_iny : cpuAfter (start (regs 0x00 0x00 0x7F 0x24 0xFD) [0xC8] []) =
    some ⟨0x00, 0x00, 0x80, 0xA4, 0xFD, 0x0601⟩ := by decide

/-- T2.2.32. -/
theorem test_dex : cpuAfter (start (regs 0x00 0x00 0x00 0x24 0xFD) [0xCA] []) =
    some ⟨0x00, 0xFF, 0x00, 0xA4, 0xFD, 0x0601⟩ := by decide

/-- T2.2.33. -/
theorem test_dey : cpuAfter (start (regs 0x00 0x00 0x01 0x24 0xFD) [0x88] []) =
    some ⟨0x00, 0x00, 0x00, 0x26, 0xFD, 0x0601⟩ := by decide

/-- T2.3.1. -/
theorem test_asl_acc : cpuAfter (start (regs 0x80 0x00 0x00 0x24 0xFD) [0x0A] []) =
    some ⟨0x00, 0x00, 0x00, 0x27, 0xFD, 0x0601⟩ := by decide

/-- T2.3.11. -/
theorem test_asl_ppu_stub : after 0x0000 (start (regs 0x00 0x00 0x00 0x24 0xFD) [0x0E, 0x05, 0x20] []) =
    some (⟨0x00, 0x00, 0x00, 0x26, 0xFD, 0x0603⟩, 0x00, [.ppuStubRead 0x2005, .ppuStubWrite 0x2005 0x00]) := by decide

/-- T2.3.5. -/
theorem test_lsr_abs : after 0x0200 (start (regs 0x00 0x00 0x00 0xA4 0xFD) [0x4E, 0x00, 0x02] [(0x200, 0xFE)]) =
    some (⟨0x00, 0x00, 0x00, 0x24, 0xFD, 0x0603⟩, 0x7F, []) := by decide

/-- T2.3.6. -/
theorem test_rol_acc : cpuAfter (start (regs 0x80 0x00 0x00 0x25 0xFD) [0x2A] []) =
    some ⟨0x01, 0x00, 0x00, 0x25, 0xFD, 0x0601⟩ := by decide

/-- T2.3.7. -/
theorem test_rol_zpx : after 0x0010 (start (regs 0x00 0x01 0x00 0x24 0xFD) [0x36, 0x0F] [(0x10, 0x40)]) =
    some (⟨0x00, 0x01, 0x00, 0xA4, 0xFD, 0x0602⟩, 0x80, []) := by decide

/-- T2.3.8. -/
theorem test_ror_acc : cpuAfter (start (regs 0x01 0x00 0x00 0x25 0xFD) [0x6A] []) =
    some ⟨0x80, 0x00, 0x00, 0xA5, 0xFD, 0x0601⟩ := by decide

/-- T2.3.10. -/
theorem test_ror_absx : after 0x0210 (start (regs 0x00 0x10 0x00 0x25 0xFD) [0x7E, 0x00, 0x02] [(0x210, 0x02)]) =
    some (⟨0x00, 0x10, 0x00, 0xA4, 0xFD, 0x0603⟩, 0x81, []) := by decide

/-- T2.3.4. -/
theorem test_lsr_acc : cpuAfter (start (regs 0x01 0x00 0x00 0x24 0xFD) [0x4A] []) =
    some ⟨0x00, 0x00, 0x00, 0x27, 0xFD, 0x0601⟩ := by decide

/-- T2.6.4. -/
theorem test_pha_wraps : after 0x0100 (start (regs 0x11 0x00 0x00 0x24 0x00) [0x48] []) =
    some (⟨0x11, 0x00, 0x00, 0x24, 0xFF, 0x0601⟩, 0x11, []) := by decide

/-- T2.6.5. -/
theorem test_pla_wraps : cpuAfter (start (regs 0x00 0x00 0x00 0x24 0xFF) [0x68] [(0x100, 0x22)]) =
    some ⟨0x22, 0x00, 0x00, 0x24, 0x00, 0x0601⟩ := by decide

/-- T2.6.6. -/
theorem test_php : after 0x01FD (start (regs 0x00 0x00 0x00 0x24 0xFD) [0x08] []) =
    some (⟨0x00, 0x00, 0x00, 0x24, 0xFC, 0x0601⟩, 0x34, []) := by decide

/-- T2.6.8. -/
theorem test_plp : cpuAfter (start (regs 0x00 0x00 0x00 0x24 0xFC) [0x28] [(0x1FD, 0xFF)]) =
    some ⟨0x00, 0x00, 0x00, 0xEF, 0xFD, 0x0601⟩ := by decide

/-- T2.6.11. -/
theorem test_clc : cpuAfter (start (regs 0x00 0x00 0x00 0xEF 0xFD) [0x18] []) =
    some ⟨0x00, 0x00, 0x00, 0xEE, 0xFD, 0x0601⟩ := by decide

/-- T2.6.12. -/
theorem test_sec : cpuAfter (start (regs 0x00 0x00 0x00 0x24 0xFD) [0x38] []) =
    some ⟨0x00, 0x00, 0x00, 0x25, 0xFD, 0x0601⟩ := by decide

/-- T2.6.13. -/
theorem test_cli : cpuAfter (start (regs 0x00 0x00 0x00 0x24 0xFD) [0x58] []) =
    some ⟨0x00, 0x00, 0x00, 0x20, 0xFD, 0x0601⟩ := by decide

/-- T2.6.14. -/
theorem test_sei : cpuAfter (start (regs 0x00 0x00 0x00 0x20 0xFD) [0x78] []) =
    some ⟨0x00, 0x00, 0x00, 0x24, 0xFD, 0x0601⟩ := by decide

/-- T2.6.15. -/
theorem test_clv : cpuAfter (start (regs 0x00 0x00 0x00 0x64 0xFD) [0xB8] []) =
    some ⟨0x00, 0x00, 0x00, 0x24, 0xFD, 0x0601⟩ := by decide

/-- T2.6.16. -/
theorem test_cld : cpuAfter (start (regs 0x00 0x00 0x00 0x2C 0xFD) [0xD8] []) =
    some ⟨0x00, 0x00, 0x00, 0x24, 0xFD, 0x0601⟩ := by decide

/-- T2.6.18. -/
theorem test_nop : cpuAfter (start (regs 0x12 0x34 0x56 0xE7 0xFD) [0xEA] []) =
    some ⟨0x12, 0x34, 0x56, 0xE7, 0xFD, 0x0601⟩ := by decide

/-- T2.7.2. -/
theorem test_slo_absx : after 0x0201 (start (regs 0x00 0x01 0x00 0x24 0xFD) [0x1F, 0x00, 0x02] [(0x201, 0x40)]) =
    some (⟨0x80, 0x01, 0x00, 0xA4, 0xFD, 0x0603⟩, 0x80, []) := by decide

/-- T2.7.3. -/
theorem test_rla : after 0x0010 (start (regs 0xFF 0x00 0x00 0x25 0xFD) [0x27, 0x10] [(0x10, 0x80)]) =
    some (⟨0x01, 0x00, 0x00, 0x25, 0xFD, 0x0602⟩, 0x01, []) := by decide

/-- T2.7.4. -/
theorem test_sre : after 0x0010 (start (regs 0xFF 0x00 0x00 0x24 0xFD) [0x47, 0x10] [(0x10, 0x03)]) =
    some (⟨0xFE, 0x00, 0x00, 0xA5, 0xFD, 0x0602⟩, 0x01, []) := by decide

/-- T2.7.6. -/
theorem test_rra : after 0x0010 (start (regs 0x7F 0x00 0x00 0x25 0xFD) [0x67, 0x10] [(0x10, 0x02)]) =
    some (⟨0x00, 0x00, 0x00, 0x27, 0xFD, 0x0602⟩, 0x81, []) := by decide

/-- T2.7.8. -/
theorem test_dcp_indy : after 0x0301 (start (regs 0x00 0x00 0x01 0x24 0xFD) [0xD3, 0x20]
      [(0x20, 0x00), (0x21, 0x03), (0x301, 0x00)]) =
    some (⟨0x00, 0x00, 0x01, 0x24, 0xFD, 0x0602⟩, 0xFF, []) := by decide

/-- T2.7.9. -/
theorem test_isb : after 0x0010 (start (regs 0x10 0x00 0x00 0x25 0xFD) [0xE7, 0x10] [(0x10, 0x0F)]) =
    some (⟨0x00, 0x00, 0x00, 0x27, 0xFD, 0x0602⟩, 0x10, []) := by decide

/-- T2.7.12. -/
theorem test_lax_zpy : cpuAfter (start (regs 0x00 0x00 0x02 0x24 0xFD) [0xB7, 0xFF] [(0x1, 0x00)]) =
    some ⟨0x00, 0x00, 0x02, 0x26, 0xFD, 0x0602⟩ := by decide

/-- T2.7.13. -/
theorem test_lax_indy : cpuAfter (start (regs 0x00 0x00 0x01 0x24 0xFD) [0xB3, 0x20]
      [(0x20, 0x00), (0x21, 0x03), (0x301, 0x44)]) =
    some ⟨0x44, 0x44, 0x01, 0x24, 0xFD, 0x0602⟩ := by decide

/-- T2.7.14. -/
theorem test_sax : after 0x0010 (start (regs 0xF0 0x3C 0x00 0x26 0xFD) [0x87, 0x10] []) =
    some (⟨0xF0, 0x3C, 0x00, 0x26, 0xFD, 0x0602⟩, 0x30, []) := by decide

/-- T2.7.17. -/
theorem test_sbc_eb : cpuAfter (start (regs 0x80 0x00 0x00 0x25 0xFD) [0xEB, 0x01] []) =
    some ⟨0x7F, 0x00, 0x00, 0x65, 0xFD, 0x0602⟩ := by decide

/-- T2.7.18. -/
theorem test_anc : cpuAfter (start (regs 0xFF 0x00 0x00 0x24 0xFD) [0x0B, 0x80] []) =
    some ⟨0x80, 0x00, 0x00, 0xA5, 0xFD, 0x0602⟩ := by decide

/-- T2.7.20. -/
theorem test_alr : cpuAfter (start (regs 0xFF 0x00 0x00 0x24 0xFD) [0x4B, 0x03] []) =
    some ⟨0x01, 0x00, 0x00, 0x25, 0xFD, 0x0602⟩ := by decide

/-- T2.7.22. -/
theorem test_arr : cpuAfter (start (regs 0x40 0x00 0x00 0x24 0xFD) [0x6B, 0xFF] []) =
    some ⟨0x20, 0x00, 0x00, 0x64, 0xFD, 0x0602⟩ := by decide

/-- T2.7.25. -/
theorem test_axs : cpuAfter (start (regs 0x0F 0x03 0x00 0x24 0xFD) [0xCB, 0x05] []) =
    some ⟨0x0F, 0xFE, 0x00, 0xA4, 0xFD, 0x0602⟩ := by decide

/-- T2.7.26. -/
theorem test_nop_1a : cpuAfter (start (regs 0x12 0x00 0x00 0xE7 0xFD) [0x1A] []) =
    some ⟨0x12, 0x00, 0x00, 0xE7, 0xFD, 0x0601⟩ := by decide

/-- T2.7.28. -/
theorem test_nop_abs_reads : after 0x0000 (start (regs 0x00 0x00 0x00 0x24 0xFD) [0x0C, 0x00, 0x40] []) =
    some (⟨0x00, 0x00, 0x00, 0x24, 0xFD, 0x0603⟩, 0x00, [.invalidAddressRead 0x4000]) := by decide

/-- T2.7.30. -/
theorem test_nop_absx_reads : after 0x0000 (start (regs 0x00 0x02 0x00 0x24 0xFD) [0x3C, 0x00, 0x20] []) =
    some (⟨0x00, 0x02, 0x00, 0x24, 0xFD, 0x0603⟩, 0x00, [.ppuStubRead 0x2002]) := by decide

/-- T2.7.31. -/
theorem test_jam_faults : runAfter (start (regs 0x00 0x00 0x00 0x24 0xFD) [0x02] []) =
    some (.faulted (.unimplementedOpcode 0x02 0x0600) (.opcodeAt 0x0600)) := by decide

/-- T2.7.33. -/
theorem test_xaa_faults : runAfter (start (regs 0x00 0x00 0x00 0x24 0xFD) [0x8B, 0x00, 0x00] []) =
    some (.faulted (.unimplementedOpcode 0x8B 0x0600) (.opcodeAt 0x0600)) := by decide

/-- T2.7.34. -/
theorem test_shy_faults : runAfter (start (regs 0x00 0x00 0x00 0x24 0xFD) [0x9C, 0x00, 0x02, 0x00] []) =
    some (.faulted (.unimplementedOpcode 0x9C 0x0600) (.opcodeAt 0x0600)) := by decide

/-- T2.4.1: BNE taken, offset 2. -/
theorem test_bne_taken : cpuAfter (start (regs 0 0 0 0x24 0xFD) [0xD0, 0x02] []) =
    some ⟨0x00, 0x00, 0x00, 0x24, 0xFD, 0x0604⟩ := by decide

/-- T2.4.9: BNE back by 5 from 0x0613, whose next instruction is at 0x0615. -/
theorem test_bne_back : cpuOf (exec (.bne 0xFB) (start { regs 0 1 0 0xA4 0xFD with pc := 0x0614 } [] [])) =
    some ⟨0x00, 0x01, 0x00, 0xA4, 0xFD, 0x0610⟩ := by decide

/-- T2.4.2: BEQ not taken. -/
theorem test_beq_not_taken : cpuAfter (start (regs 0 0 0 0x24 0xFD) [0xF0, 0x02] []) =
    some ⟨0x00, 0x00, 0x00, 0x24, 0xFD, 0x0602⟩ := by decide

/-- T2.4.3 to T2.4.8: BCC, BCS, BPL, BMI, BVC and BVS. -/
theorem test_other_branches :
    (cpuAfter (start (regs 0 0 0 0x24 0xFD) [0x90, 0x00] [])).map (·.pc) = some 0x0602 ∧
    (cpuAfter (start (regs 0 0 0 0x25 0xFD) [0xB0, 0x01] [])).map (·.pc) = some 0x0603 ∧
    (cpuAfter (start (regs 0 0 0 0x26 0xFD) [0x10, 0x01] [])).map (·.pc) = some 0x0603 ∧
    (cpuAfter (start (regs 0 0 0 0x24 0xFD) [0x30, 0x01] [])).map (·.pc) = some 0x0602 ∧
    (cpuAfter (start (regs 0 0 0 0x24 0xFD) [0x50, 0x01] [])).map (·.pc) = some 0x0603 ∧
    (cpuAfter (start (regs 0 0 0 0x64 0xFD) [0x70, 0x01] [])).map (·.pc) = some 0x0603 := by decide

/-- T2.5.4: a JMP to a0 + 1 goes there. -/
theorem test_jmp_abs : cpuAfter (start (regs 0 0 0 0x24 0xFD) [0x4C, 0x01, 0x06] []) =
    some ⟨0x00, 0x00, 0x00, 0x24, 0xFD, 0x0601⟩ := by decide

/-- T2.5.3: the page-wrap bug of JMP indirect. -/
theorem test_jmp_ind_page_wrap :
    cpuAfter (start (regs 0 0 0 0x24 0xFD) [0x6C, 0xFF, 0x02] [(0x200, 0x07), (0x2FF, 0x10), (0x300, 0x08)]) =
    some ⟨0x00, 0x00, 0x00, 0x24, 0xFD, 0x0710⟩ := by decide

/-- T2.5.5: JSR pushes a0 + 2; the low byte lies lower. -/
theorem test_jsr : after 0x01FC (start (regs 0 0 0 0x24 0xFD) [0x20, 0x10, 0x06] []) =
    some (⟨0x00, 0x00, 0x00, 0x24, 0xFB, 0x0610⟩, 0x02, []) := by decide

/-- T2.5.8: RTS with SP = 0xFF. -/
theorem test_rts_wraps : cpuAfter (start (regs 0 0 0 0x24 0xFF) [0x60] [(0x100, 0x0F), (0x101, 0x07)]) =
    some ⟨0x00, 0x00, 0x00, 0x24, 0x01, 0x0710⟩ := by decide

/-- T2.5.9: RTI. -/
theorem test_rti : cpuAfter (start (regs 0 0 0 0x24 0xFA) [0x40] [(0x1FB, 0xD3), (0x1FC, 0x10), (0x1FD, 0x07)]) =
    some ⟨0x00, 0x00, 0x00, 0xE3, 0xFD, 0x0710⟩ := by decide

/-- T2.5.12: BRK. -/
theorem test_brk : runAfter (start (regs 0 0 0 0x20 0x10) [0x00] []) = some .halted ∧
    cpuAfter (start (regs 0 0 0 0x20 0x10) [0x00] []) = some ⟨0x00, 0x00, 0x00, 0x20, 0x10, 0x0601⟩ := by decide

/-- T2.6.17: SED, and then an ADC that stays binary. -/
theorem test_sed : cpuAfter (start (regs 9 0 0 0x24 0xFD) [0xF8] []) =
      some ⟨0x09, 0x00, 0x00, 0x2C, 0xFD, 0x0601⟩ ∧
    cpuAfter (start (regs 9 0 0 0x2C 0xFD) [0x69, 0x09] []) =
      some ⟨0x12, 0x00, 0x00, 0x2C, 0xFD, 0x0602⟩ := by decide

/-- T2.8.1: a fetch from the PPU stub. -/
theorem test_fetch_from_stub :
    after 0x0000 (start { regs 0 0 0 0x24 0xFD with pc := 0x2000 } [] []) =
      some (⟨0x00, 0x00, 0x00, 0x24, 0xFD, 0x2001⟩, 0x00, [.ppuStubRead 0x2000]) := by decide

/-! ## From reset, and the word the host places -/

/-- With nothing loaded the first step runs the BRK that empty RAM holds at 0x0000 (R287, log entry 1). -/
theorem test_first_step_from_reset : runAfter State.reset = some .halted ∧
    cpuAfter State.reset = some ⟨0x00, 0x00, 0x00, 0x24, 0xFD, 0x0001⟩ := by decide

/-- R170. -/
theorem test_with_fetch_word : cpuAfter (State.reset.withFetchWord 16 0x80A9) =
    some ⟨0x80, 0x00, 0x00, 0xA4, 0xFD, 0x0002⟩ := by decide

/-! ## Loader, host operations, hook and tracer -/

/-- T2.10.1, T2.10.5, T2.10.3 and R86, without images. -/
theorem test_loader_rejects :
    loadCartridge [0x4E, 0x45, 0x53, 0x1A, 1, 1, 0, 0, 0, 0, 0, 0, 0, 0, 0] = .error .shortHeader ∧
    loadCartridge [0x4E, 0x45, 0x53, 0x1B, 1, 1, 0, 8, 0, 0, 0, 0, 0, 0, 0, 0] = .error .badMagic ∧
    loadCartridge [0x4E, 0x45, 0x53, 0x1A, 1, 1, 0, 8, 0, 0, 0, 0, 0, 0, 0, 0] = .error .unsupportedVersion ∧
    loadCartridge [0x4E, 0x45, 0x53, 0x1A, 1, 1, 0, 3, 0, 0, 0, 0, 0, 0, 0, 0] = .error .truncated := by decide

/-- T2.10.11, with the header bytes 6 and 7 of T2.10.8. -/
theorem test_loader_accepts :
    loadCartridge [0x4E, 0x45, 0x53, 0x1A, 0, 0, 0x31, 0x40, 0, 0, 0, 0, 0, 0, 0, 0] =
      .ok { prgBanks := 0, prg := [], chrBanks := 0, chr := [], mapper := 0x43, mirroring := .vertical,
            harness := false } := by decide

/-- T2.9.7: reset with no PRG bank. -/
theorem test_reset_without_prg :
    runOf (hostReset { State.reset with bus := { ram := [], cart := { Config.defaultHarnessCart with prgBanks := 0 } } }) =
      some (.faulted (.prgIndexOutOfRange 0xFFFC 0x7FFC) .reset) := by decide

/-- T2.11.1 and T2.11.3: refused loads. -/
theorem test_load_refused : refusalOf (hostLoad [0x01, 0x02] 0xFFFF State.reset) = some .loadPastEnd ∧
    refusalOf (hostLoad [0x01] 0x4000 State.reset) = some .loadNoStorage := by decide

/-- T2.11.12: load at 0x0700, then reset. -/
theorem test_load_and_reset :
    (match hostLoad [0x00] 0x0700 State.reset with
      | .next t => cpuOf (hostReset t)
      | _ => none) = some ⟨0x00, 0x00, 0x00, 0x24, 0xFD, 0x0700⟩ := by decide

/-- R468: `load_and_run` at another LOAD_ORIGIN (R7); the one BRK of the program leaves PC = 0x0701. -/
theorem test_load_and_run_origin :
    (match loadAndRun { ramInit := fun _ => 0x00, loadOrigin := 0x0700 } [0x00] 1 State.reset with
      | .next t => t.map (·.cpu.pc)
      | _ => none) = some 0x0701 := by decide

/-- R425: the two host addresses are parameters. -/
theorem test_platform_hook :
    (platformHook { ramInit := fun _ => 0x00 } 0x5C (some 0x77)).writes = [(0x00FE, 0x5C), (0x00FF, 0x77)] ∧
    (platformHook { ramInit := fun _ => 0x00, hostRngAddr := 0x10 } 0x5C none).writes = [(0x0010, 0x5C)] := by decide

/-- T2.11.6: a run in Faulted is refused and returns the record (R466). -/
theorem test_run_refused_with_record :
    (match hostRun 1 (State.reset.setRun (.faulted (.unimplementedOpcode 0x02 0x0600) (.opcodeAt 0x0600))) with
      | .refused r => some r
      | _ => none) = some (.sessionFaulted (.unimplementedOpcode 0x02 0x0600) (.opcodeAt 0x0600)) := by decide

/-- T2.9.2: a 16-bit read across the edge of the RAM window. -/
theorem test_read16_across_regions :
    (match hostMemRead16 0x1FFF (start (regs 0 0 0 0x24 0xFD) [] [(0x7FF, 0x34)]) with
      | .next (v, t) => some (v, t.diag)
      | _ => none) = some (some 0x0034, [.ppuStubRead 0x2000]) := by decide

/-- T2.11.9: a hook write into the PRG window. -/
theorem test_hook_faults :
    runAfter { start (regs 0 0 0 0x24 0xFD) [0xE8] [] with hooks := [{ reads := [], writes := [(0x8000, 0x01)] }] } =
      some (.faulted (.illegalWrite 0x8000 0x01) .hook) := by decide

/-- T2.11.8: a hook write is seen by the instruction of the same step. -/
theorem test_hook_before_fetch :
    (cpuAfter { start (regs 0 0 0 0x24 0xFD) [0xA5, 0xFE] [] with
      hooks := [{ reads := [], writes := [(0x00FE, 0x5C)] }] }).map (·.a) = some 0x5C := by decide

/-- T2.12.12. -/
theorem test_trace_indx :
    hostTrace (start (regs 0 1 0 0x24 0xFD) [0xA1, 0xFE] [(0xFF, 0), (0, 3), (0x300, 0x5A)]) =
      "0600  A1 FE     LDA ($FE,X) @ FF = 0300 = 5A    A:00 X:01 Y:00 P:24 SP:FD" := by decide +kernel

/-- T2.12.14. -/
theorem test_trace_rel :
    hostTrace { start (regs 5 4 0 0x24 0xFD) [] [(0x60A, 0xD0), (0x60B, 0xF8)] with
        cpu := { regs 5 4 0 0x24 0xFD with pc := 0x060A } } =
      "060A  D0 F8     BNE $0604                       A:05 X:04 Y:00 P:24 SP:FD" := by decide +kernel

/-! ## Witnesses: for each obligation with hypotheses, states and operands that meet them, clause by clause, at the ends
of a range. -/

/-- An instruction's start state: PC = a0 + 1 = 0x0601. -/
def base : State := start { regs 0x12 0x34 0x56 0x24 0xFD with pc := 0x0601 } [] []

/-- The same with A, X and P replaced, or with PC replaced. -/
def baseP (p : Byte) : State := { base with cpu := { base.cpu with p := p } }

/-- The same at another PC. -/
def baseAt (pc : Word) : State := { base with cpu := { base.cpu with pc := pc } }

/-- The same on a cartridge with `n` PRG banks. -/
def banks (n : Nat) (s : State) : State :=
  { s with bus := { s.bus with cart := { s.bus.cart with prgBanks := n } } }

/-- The same under the policy Implemented. -/
def unstableBase : State := { base with policy := .implemented }

theorem witness_base : base.bus.ram.wf 0x800 = true ∧ base.bus.wf = true ∧ base.run = .running ∧
    base.nextHook = HookCall.noop := by decide

theorem witness_EncodeOfDecode : decode [0xA9, 0x05, 0x07] = .ok (.ldaImm 0x05, [0x07]) := by decide

theorem witness_DecodeRejectsExactlyShortInput : (rowOf 0x20).length ≤ [(0x10 : Byte), 0x06].length + 1 ∧
    (rowOf 0xEA).length ≤ ([] : List Byte).length + 1 := by decide

theorem witness_BusRead :
    (0x0000#16).toNat ≤ 0x1FFF ∧ (0x1FFF#16).toNat ≤ 0x1FFF ∧
    0x2000 ≤ (0x2000#16).toNat ∧ (0x3FFF#16).toNat ≤ 0x3FFF ∧
    0x4000 ≤ (0x4000#16).toNat ∧ (0x7FFF#16).toNat ≤ 0x7FFF ∧
    0x8000 ≤ (0x8000#16).toNat ∧ 0x8000 ≤ (0xFFFF#16).toNat ∧
    prgIndex base.bus.cart 0xFFFF < base.bus.cart.prgLength ∧
    (banks 0 base).bus.cart.prgLength ≤ prgIndex (banks 0 base).bus.cart 0x8000 := by
  simp [prgIndex, Cart.prgLength, base, banks, start, Config.defaultHarnessCart]

theorem witness_BusWrite :
    (0x0000#16).toNat ≤ 0x1FFF ∧ (0x1FFF#16).toNat ≤ 0x1FFF ∧
    0x2000 ≤ (0x2000#16).toNat ∧ (0x3FFF#16).toNat ≤ 0x3FFF ∧
    0x4000 ≤ (0x4000#16).toNat ∧ (0x7FFF#16).toNat ≤ 0x7FFF ∧
    0x8000 ≤ (0x8000#16).toNat ∧ 0x8000 ≤ (0xFFFF#16).toNat := by simp

theorem witness_RamIsMirrored : base.bus.ram.wf 0x800 = true ∧ (0x1FFF#16).toNat ≤ 0x1FFF ∧
    (0x0000#16).toNat ≤ 0x1FFF ∧ 0x1800#16 ∈ [0x0800#16, 0x1000#16, 0x1800#16] := by decide

theorem witness_PrgWindowMapsTheImage : 0x8000 ≤ (0xFFFF#16).toNat ∧
    base.bus.cart.prgBanks = 1 ∧ 2 ≤ (banks 2 base).bus.cart.prgBanks ∧ (banks 0 base).bus.cart.prgBanks = 0 := by
  decide

theorem witness_WordAccessIsTwoByteAccesses : base.bus.readableAll [0xFFFF#16, 0xFFFF#16 + 1#16] = true ∧
    base.bus.ram.wf 0x800 = true ∧ writable 0x7FFE#16 = true ∧ writable (0x7FFE#16 + 1#16) = true := by decide

theorem witness_StackPrimitives : base.bus.ram.wf 0x800 = true := by decide

theorem witness_ShiftRules : 0 < 8 ∧ 7 < 8 := by decide

theorem witness_EffectiveAddresses : base.bus.readable base.cpu.pc = true ∧
    base.bus.readableAll [base.cpu.pc, base.cpu.pc + 1#16] = true := by decide

theorem witness_Loads : ∀ i ∈ [Instr.ldaImm 0x05, .ldaIndX 0xFF, .ldxZpY 0xF0, .ldyAbsX 0xFFFF, .laxIndY 0x20],
    base.bus.readableAll (operandReads i.operand base.cpu base.bus) = true ∧
      i.mnem ∈ [Mnem.lda, .ldx, .ldy, .lax] := by decide

theorem witness_Stores : base.bus.ram.wf 0x800 = true ∧
    ∀ i ∈ [Instr.staAbs 0x0000, .staAbs 0x7FFF, .staIndY 0x20, .stxZpY 0xFF, .styZpX 0x10, .saxIndX 0x10],
      i.mnem ∈ storeMnems ∧ base.bus.readableAll (eaReads i.operand base.cpu) = true ∧
        writable (peekEa i.operand base.cpu base.bus) = true := by decide

theorem witness_Transfers : ∀ i ∈ [Instr.tax, .tay, .txa, .tya, .tsx, .txs],
    i.mnem ∈ [Mnem.tax, .tay, .txa, .tya, .tsx, .txs] := by decide

theorem witness_AddAndSubtract : ∀ i ∈ [Instr.adcImm 0xFF, .adcAbs 0xFFFF, .sbcZp 0x00, .sbcImmEB 0x01],
    base.bus.readableAll (operandReads i.operand base.cpu base.bus) = true ∧ i.mnem ∈ [Mnem.adc, .sbc] := by decide

theorem witness_BitwiseLogic : ∀ i ∈ [Instr.andImm 0x0F, .oraIndY 0x20, .eorIndX 0x10],
    base.bus.readableAll (operandReads i.operand base.cpu base.bus) = true ∧ i.mnem ∈ [Mnem.and, .ora, .eor] := by
  decide

theorem witness_BitTest : ∀ i ∈ [Instr.bitZp 0x10, .bitAbs 0xFFFF],
    base.bus.readableAll (operandReads i.operand base.cpu base.bus) = true ∧ i.mnem = .bit := by decide

theorem witness_Compares : ∀ i ∈ [Instr.cmpImm 0x10, .cpxZp 0x10, .cpyAbs 0x0200],
    base.bus.readableAll (operandReads i.operand base.cpu base.bus) = true ∧ i.mnem ∈ [Mnem.cmp, .cpx, .cpy] := by
  decide

theorem witness_IncrementMemory : base.bus.ram.wf 0x800 = true ∧
    ∀ i ∈ [Instr.incZp 0x00, .incAbsX 0x1FFF, .decAbs 0x7FFF],
      i.mnem ∈ [Mnem.inc, .dec] ∧ base.bus.readableAll (operandReads i.operand base.cpu base.bus) = true ∧
        writable (peekEa i.operand base.cpu base.bus) = true := by decide

theorem witness_IncrementRegisters : ∀ i ∈ [Instr.inx, .iny, .dex, .dey],
    i.mnem ∈ [Mnem.inx, .iny, .dex, .dey] := by decide

theorem witness_ShiftAccumulator : ∀ i ∈ [Instr.aslAcc, .lsrAcc, .rolAcc, .rorAcc],
    i ∈ [Instr.aslAcc, .lsrAcc, .rolAcc, .rorAcc] := by decide

theorem witness_ShiftMemory : base.bus.ram.wf 0x800 = true ∧
    ∀ i ∈ [Instr.aslZp 0x10, .lsrAbs 0x7FFF, .rolZpX 0x0F, .rorAbsX 0x0000],
      i.mnem ∈ [Mnem.asl, .lsr, .rol, .ror] ∧ i.operand ≠ .acc ∧
        base.bus.readableAll (operandReads i.operand base.cpu base.bus) = true ∧
        writable (peekEa i.operand base.cpu base.bus) = true := by decide

theorem witness_WritesToRomFault :
    (∀ i ∈ [Instr.staAbs 0x8000, .stxAbs 0x8000, .styAbs 0x8000, .saxAbs 0x8000],
      peekEa i.operand base.cpu base.bus = 0x8000#16 ∧ i.mnem ∈ storeMnems ∧
        base.bus.readableAll (eaReads i.operand base.cpu) = true) ∧
    (∀ i ∈ [Instr.incAbs 0x8000, .decAbs 0x8000, .aslAbs 0x8000, .lsrAbs 0x8000, .rolAbs 0x8000, .rorAbs 0x8000,
        .sloAbs 0x8000, .rlaAbs 0x8000, .sreAbs 0x8000, .rraAbs 0x8000, .dcpAbs 0x8000, .isbAbs 0x8000],
      peekEa i.operand base.cpu base.bus = 0x8000#16 ∧
        i.mnem ∈ [Mnem.inc, .dec, .asl, .lsr, .rol, .ror, .slo, .rla, .sre, .rra, .dcp, .isb] ∧ i.operand ≠ .acc ∧
        base.bus.readableAll (operandReads i.operand base.cpu base.bus) = true) := by decide

theorem witness_rom_address : 0x8000 ≤ (0x8000#16).toNat := by simp

/-- BNE not taken, taken, and taken where its offset cannot be read. -/
theorem witness_Branches :
    (Mnem.bne, Machine.Flag.z, false) ∈ [(Mnem.bpl, Machine.Flag.n, false), (.bmi, .n, true), (.bvc, .v, false),
      (.bvs, .v, true), (.bcc, .c, false), (.bcs, .c, true), (.bne, .z, false), (.beq, .z, true)] ∧
    (Instr.bne 0xFB).mnem = .bne ∧ (baseP 0x26).cpu.flag .z ≠ false ∧
    base.cpu.flag .z = false ∧ base.bus.readable base.cpu.pc = true ∧
    (banks 0 (baseAt 0x8001)).cpu.flag .z = false ∧
    (banks 0 (baseAt 0x8001)).bus.readable (banks 0 (baseAt 0x8001)).cpu.pc = false := by decide

/-- The operand bytes readable, the pointer's too, and the four places where a read can fail. -/
theorem witness_Jumps :
    base.bus.readableAll [0x0601#16, 0x0602#16] = true ∧
    base.bus.readableAll ([0x0601#16, 0x0602#16] ++ [0x02FF#16, 0x0200#16]) = true ∧
    [0x8001#16, 0x8002#16] = [] ++ 0x8001#16 :: [0x8002#16] ∧ (banks 0 base).bus.readableAll [] = true ∧
    [0x7FFF#16, 0x8000#16] = [0x7FFF#16] ++ 0x8000#16 :: [] ∧ (banks 0 base).bus.readableAll [0x7FFF#16] = true ∧
    [0x0601#16, 0x0602#16] ++ [0x8000#16, 0x8001#16] = [0x0601#16, 0x0602#16] ++ 0x8000#16 :: [0x8001#16] ∧
    (banks 0 base).bus.readableAll [0x0601#16, 0x0602#16] = true ∧
    [0x0601#16, 0x0602#16] ++ [0x7FFF#16, 0x8000#16] = [0x0601#16, 0x0602#16, 0x7FFF#16] ++ 0x8000#16 :: [] ∧
    (banks 0 base).bus.readableAll [0x0601#16, 0x0602#16, 0x7FFF#16] = true ∧
    (banks 0 base).bus.readable 0x8000#16 = false ∧ (banks 0 base).bus.readable 0x8001#16 = false := by decide

/-- The operand bytes readable and clear of the pushes; and not readable. -/
theorem witness_JumpToSubroutine :
    base.bus.ram.wf 0x800 = true ∧ base.bus.readableAll [0x0601#16, 0x0602#16] = true ∧
    base.bus.peek16 base.cpu.pc = 0x0000#16 ∧
    [0x0601#16, 0x0602#16].all (fun a => !sameRamByte (0x0100#16 + zext16 (base.cpu.sp - 1#8)) a &&
      !sameRamByte (0x0100#16 + zext16 base.cpu.sp) a) = true ∧
    (banks 0 base).bus.readableAll [0x7FFF#16, 0x8000#16] = false := by decide

theorem witness_BreakHalts : (baseAt 0x2000).run = .running ∧ (baseAt 0x2000).nextHook = HookCall.noop ∧
    (baseAt 0x2000).bus.readable 0x2000#16 = true ∧ (baseAt 0x2000).bus.peek 0x2000#16 = 0x00#8 := by decide

theorem witness_PushInstructions : base.bus.ram.wf 0x800 = true ∧ ∀ i ∈ [Instr.pha, .php], i ∈ [Instr.pha, .php] := by
  decide

theorem witness_PullUndoesPush : base.bus.ram.wf 0x800 = true ∧ (∃ t, exec .pha base = .next t) ∧
    (∃ t, exec .php base = .next t) ∧
    ∃ t, exec (.jsr 0x0000) base = .next t ∧ base.run.live = true ∧ t.run = base.run :=
  ⟨by decide, ⟨_, rfl⟩, ⟨_, rfl⟩, _, rfl, rfl, rfl⟩

theorem witness_FlagInstructions : (Instr.sed, Machine.Flag.d, true) ∈ [(Instr.clc, Machine.Flag.c, false),
    (.sec, .c, true), (.cli, .i, false), (.sei, .i, true), (.clv, .v, false), (.cld, .d, false), (.sed, .d, true)] := by
  decide

theorem witness_NoOperations : ∀ i ∈ [Instr.nop, .nop1A, .nopImm80 0x55, .nopAbs0C 0x4000, .nopAbsX3C 0xFFFF],
    i.mnem = .nop ∧
    base.bus.readableAll (if i.operand = .imp then [] else operandReads i.operand base.cpu base.bus) = true := by decide

theorem witness_CombinedModify : base.bus.ram.wf 0x800 = true ∧
    ∀ i ∈ [Instr.sloZp 0x10, .rlaAbs 0x7FFF, .sreIndX 0x10, .rraIndY 0x20, .dcpZpX 0x10, .isbAbsY 0x0000],
      i.mnem ∈ [Mnem.slo, .rla, .sre, .rra, .dcp, .isb] ∧
        base.bus.readableAll (operandReads i.operand base.cpu base.bus) = true ∧
        writable (peekEa i.operand base.cpu base.bus) = true := by decide

theorem witness_CombinedImmediate : base.bus.readable base.cpu.pc = true ∧
    ∀ i ∈ [Instr.ancImm0B 0x80, .ancImm2B 0x7F, .alrImm 0x03, .arrImm 0xFF, .axsImm 0x01],
      i.mnem ∈ [Mnem.anc, .alr, .arr, .axs] := by decide

theorem witness_UnimplementedOpcodesFault :
    ∀ i ∈ [Instr.jam02, .jamF2, .xaaImm 0x00, .lxaImm 0x00, .ahxIndY 0x20, .ahxAbsY 0x0200, .tasAbsY 0x0200,
        .shyAbsX 0x0200, .shxAbsY 0x0200, .lasAbsY 0x0200],
      i.implemented base.policy = false := by decide

theorem witness_UnstableOpcodesStayInBounds : unstableBase.bus.ram.wf 0x800 = true ∧
    unstableBase.policy = .implemented ∧
    ∀ i ∈ [Instr.xaaImm 0x00, .lxaImm 0x00, .ahxIndY 0x20, .ahxAbsY 0x0200, .tasAbsY 0x0200, .shyAbsX 0x0200,
        .shxAbsY 0x0200, .shxAbsY 0x8000, .lasAbsY 0x0200],
      i.mnem ∈ unstableMnems ∧
        unstableBase.bus.readableAll (operandReads i.operand unstableBase.cpu unstableBase.bus) = true := by decide

/-- The first access, a later one, and one of a store. -/
theorem witness_UnreadableOperandFaults :
    (Instr.ldaZp 0x10).operand.mode ≠ .noneAddressing ∧ (Instr.ldaZp 0x10).mnem ∉ unstableMnems ∧
    operandReads (Instr.ldaZp 0x10).operand (baseAt 0x8001).cpu (banks 0 (baseAt 0x8001)).bus =
      [] ++ 0x8001#16 :: [0x0010#16] ∧
    operandReads (Instr.incAbs 0x8000).operand base.cpu (banks 0 base).bus =
      [0x0601#16, 0x0602#16] ++ 0x8000#16 :: [] ∧
    (Instr.staAbs 0x0000).mnem ∈ storeMnems ∧
    eaReads (Instr.staAbs 0x0000).operand (baseAt 0x7FFF).cpu = [0x7FFF#16] ++ 0x8000#16 :: [] ∧
    (banks 0 base).bus.readableAll [0x0601#16, 0x0602#16] = true ∧ (banks 0 base).bus.readableAll [0x7FFF#16] = true ∧
    (banks 0 base).bus.readable 0x8000#16 = false ∧ (banks 0 base).bus.readable 0x8001#16 = false := by decide

/-- One instruction for each of the three faults. -/
theorem witness_FaultsAreThoseOfTheSpec : base.run.live = true ∧ (banks 0 base).run.live = true ∧
    (∃ t f site, exec .jam02 base = .next t ∧ t.run = .faulted f site) ∧
    (∃ t f site, exec (.staAbs 0x8000) base = .next t ∧ t.run = .faulted f site) ∧
    (∃ t f site, exec (.ldaAbs 0xFFFF) (banks 0 base) = .next t ∧ t.run = .faulted f site) :=
  ⟨rfl, rfl, ⟨_, _, _, rfl, rfl⟩, ⟨_, _, _, rfl, rfl⟩, ⟨_, _, _, rfl, rfl⟩⟩

theorem witness_StepRunsDecodedInstruction :
    let s := start (regs 0 0 0 0x24 0xFD) [0xA9, 0x05] []
    s.run = .running ∧ s.nextHook = HookCall.noop ∧ s.bus.readable s.cpu.pc = true ∧
      decode [s.bus.peek s.cpu.pc, s.bus.peek (s.cpu.pc + 1#16), s.bus.peek (s.cpu.pc + 2#16)] =
        .ok (.ldaImm 0x05, [0x00]) := by decide

theorem witness_StepByRunState : base.run = .running ∧ (base.setRun .halted).run = .halted ∧
    (base.setRun (.faulted (.illegalWrite 0x8000 0x01) .hook)).run = .faulted (.illegalWrite 0x8000 0x01) .hook := by
  decide

theorem witness_FetchOutsideCode :
    0x2000 ≤ (baseAt 0x2000).cpu.pc.toNat ∧ (baseAt 0x7FFF).cpu.pc.toNat ≤ 0x7FFF ∧
    (baseAt 0x2000).run = .running ∧ (baseAt 0x2000).nextHook = HookCall.noop ∧
    (banks 0 (baseAt 0x8000)).bus.readable 0x8000#16 = false :=
  ⟨by simp [baseAt], by simp [baseAt], rfl, rfl, by decide⟩

theorem witness_HookComesFirst :
    base.run = .running ∧ base.bus.readableAll [0x2002#16] = true ∧
    [(0x00FE#16, 0x5C#8), (0x8000#16, 0x01#8), (0x0000#16, 0x02#8)] =
      [(0x00FE#16, 0x5C#8)] ++ (0x8000#16, 0x01#8) :: [(0x0000#16, 0x02#8)] ∧
    [(0x00FE#16, 0x5C#8), (0x7FFF#16, 0x01#8)].all (fun w => writable w.1) = true ∧ writable 0x8000#16 = false := by
  decide

theorem witness_OnlyBreakHalts : base.nextHook = HookCall.noop ∧
    ∃ t, step (baseAt 0x0300) = .next t ∧ t.run = .halted := ⟨by decide, _, rfl, rfl⟩

theorem witness_StepKeepsInv : base.Inv ∧ ∃ t, step base = .next t :=
  ⟨⟨by decide, fun _ => by decide⟩, _, rfl⟩

theorem witness_StepKeepsCartridge : ∃ t, step base = .next t := ⟨_, rfl⟩

theorem witness_EventsDoNotInfluenceSteps : ∃ t, step (baseAt 0x4000) = .next t := ⟨_, rfl⟩

theorem witness_ResetOperation : base.run.live = true ∧ 0 < base.bus.cart.prgBanks ∧
    (banks 0 base).run.live = true ∧ (banks 0 base).bus.cart.prgBanks = 0 ∧
    (base.setRun (.faulted (.unimplementedOpcode 0x02 0x0600) (.opcodeAt 0x0600))).run =
      .faulted (.unimplementedOpcode 0x02 0x0600) (.opcodeAt 0x0600) := by decide

/-- Parameters other than the defaults. -/
def otherParams : Config.Params :=
  { ramInit := fun k => BitVec.ofNat 8 k
    loadOrigin := 0x0700
    unstablePolicy := .implemented
    hostRngAddr := 0x10
    hostInputAddr := 0x11
    harnessCart := { Config.defaultHarnessCart with prgBanks := 2 } }

/-- A harness session, a ROM of no banks, and a byte sequence that is no ROM. -/
theorem witness_newSession :
    Source.harness.cart otherParams = .ok { Config.defaultHarnessCart with prgBanks := 2 } ∧
    (Source.rom []).cart otherParams = .error .shortHeader ∧
    0 < 0x800 ∧ 0x7FF < 0x800 := by decide

theorem witness_LoadThenReset : base.bus.wf = true ∧ base.run.live = true ∧ base.bus.cart.harness = true ∧
    0 < base.bus.cart.prgBanks ∧ 0 < (banks 2 base).bus.cart.prgBanks ∧
    (0x07FE#16).toNat + [(0xEA : Byte), 0x00].length ≤ 0x0800 ∧ 1 < [(0xEA : Byte), 0x00].length ∧
    (0x0700#16).toNat + [(0xEA : Byte), 0x00].length ≤ 0x0800 ∧ otherParams.loadOrigin = 0x0700#16 := by decide

theorem witness_RunEndsHaltedOrFaulted :
    (runLoop (fun _ _ => HookCall.noop) 1 base).isSome = true ∧ (1 : Nat) ≤ 2 ∧ (base.setRun .halted).run.live = true ∧
    (base.setRun (.faulted (.illegalWrite 0x8000 0x01) .hook)).run = .faulted (.illegalWrite 0x8000 0x01) .hook := by
  decide

/-- A header of 15 bytes, and headers of 16 bytes for each later check. -/
theorem witness_LoaderChecksThenSlices :
    (List.replicate 15 0x00#8).length < 16 ∧
    16 ≤ (List.replicate 16 0x00#8).length ∧ (List.replicate 16 0x00#8).take 4 ≠ [0x4E#8, 0x45#8, 0x53#8, 0x1A#8] ∧
    (∀ v ∈ [0x04#8, 0x08#8], (v.getLsbD 2 || v.getLsbD 3) = true) ∧
    (let buf := [0x4E#8, 0x45#8, 0x53#8, 0x1A#8, 1, 1, 0x04, 0x03, 0, 0, 0, 0, 0, 0, 0, 0];
      16 ≤ buf.length ∧ buf.take 4 = [0x4E#8, 0x45#8, 0x53#8, 0x1A#8] ∧
      ((buf.getD 7 0x00#8).getLsbD 2 || (buf.getD 7 0x00#8).getLsbD 3) = false ∧
      buf.length < 16 + 512 + 16384 + 8192) := by decide

/-- A file with one PRG bank, an image byte at the end of its range, whatever the bytes are. -/
theorem witness_LoaderSlices (image : List Byte) (h : image.length = 16384) :
    let buf := 0x4E#8 :: 0x45#8 :: 0x53#8 :: 0x1A#8 :: 1 :: 0 :: 0 :: 0 :: 0 :: 0 :: 0 :: 0 :: 0 :: 0 :: 0 :: 0 :: image
    16 ≤ buf.length ∧ buf.take 4 = [0x4E#8, 0x45#8, 0x53#8, 0x1A#8] ∧
      16 + 0 + (buf.getD 4 0x00#8).toNat * 16384 + (buf.getD 5 0x00#8).toNat * 8192 ≤ buf.length ∧
      16383 < (buf.getD 4 0x00#8).toNat * 16384 := by
  simp [h]

theorem witness_image : (List.replicate 16384 0xEA#8).length = 16384 := List.length_replicate

end Sys2Proof.Tests
end

section
/-! Proofs for spec/00_scope.md: construction of a session, reset, and load followed by reset. First what the host
operations and the backdoor writes do, then the two statements. -/

namespace Sys2Proof.Machine

/-! ## Refusal and reset -/

/-- A host operation runs in a session that is not Faulted (spec/60_exceptions.md R404). -/
theorem unlessFaulted_of_live {α : Type} {s : State} (h : s.run.live = true) (k : Host.Outcome α Fault Refusal) :
    unlessFaulted s k = k := by
  unfold unlessFaulted
  cases hr : s.run with
  | running | halted => rfl
  | faulted f site => simp [hr, Run.live] at h

/-- A host operation in Faulted is refused with the record (R404). -/
theorem unlessFaulted_of_faulted {α : Type} {s : State} {f : Fault} {site : Site} (h : s.run = .faulted f site)
    (k : Host.Outcome α Fault Refusal) : unlessFaulted s k = .refused (.sessionFaulted f site) := by
  simp only [unlessFaulted, h]

theorem region_resetVector : region Config.resetVector = .prgRom := rfl

theorem region_resetVector_succ : region (Config.resetVector + 1#16) = .prgRom := rfl

/-- With a PRG bank, reset reads its vector without an event (spec/70_reset_and_hazards.md R461). -/
theorem resetSession_of_bank {s : State} (h : 0 < s.bus.cart.prgBanks) :
    resetSession s = { s with cpu := Cpu.reset (s.bus.peek16 Config.resetVector), run := .running } := by
  have hread : s.bus.readableAll [Config.resetVector, Config.resetVector + 1#16] = true := by
    simp [Bus.readableAll, readable_of_bank h]
  have hquiet : readEventsAll [Config.resetVector, Config.resetVector + 1#16] = [] := rfl
  simp [resetSession_ok hread, State.logReads, hquiet, Bus.peek16]

/-- Without a PRG bank, reset faults at the first byte of its vector (R461, R65). -/
theorem resetSession_of_no_bank {s : State} (h : s.bus.cart.prgBanks = 0) :
    resetSession s = s.enterFaulted (.prgIndexOutOfRange 0xFFFC#16 0x7FFC) .reset := by
  have hlen : s.bus.cart.prgLength = 0 := by simp [Cart.prgLength, h]
  have hidx : prgIndex s.bus.cart Config.resetVector = 0x7FFC := by simp [prgIndex, hlen, Config.resetVector]
  have hbad : s.bus.readable Config.resetVector = false := by simp [Bus.readable, region_resetVector, hlen]
  rw [resetSession, memRead16_eq, if_pos hbad, hidx]
  rfl

/-! ## The backdoor writes of load -/

theorem place_of_ram {a : Word} (h : region a = .ram) (v : Byte) (b : Bus) :
    b.place a v = { b with ram := b.ram.write (ramIndex a) v } := by
  simp only [Bus.place, h]

/-- With a PRG bank, every address of the PRG window lies inside the image (spec/20_memory.md R65). -/
theorem prgIndex_lt_of_bank {b : Bus} (hb : 0 < b.cart.prgBanks) {a : Word} (h : region a = .prgRom) :
    prgIndex b.cart a < b.cart.prgLength := by
  simpa [Bus.readable, h] using readable_of_bank hb a

theorem place_of_prgRom {b : Bus} (hb : 0 < b.cart.prgBanks) {a : Word} (h : region a = .prgRom) (v : Byte) :
    b.place a v = { b with cart := { b.cart with prg := b.cart.prg.write (prgIndex b.cart a) v } } := by
  simp only [Bus.place, h, if_pos (prgIndex_lt_of_bank hb h)]

@[simp] theorem place_prgBanks (a : Word) (v : Byte) (b : Bus) : (b.place a v).cart.prgBanks = b.cart.prgBanks := by
  unfold Bus.place
  split
  · rfl
  · split <;> rfl
  all_goals rfl

/-- What the PRG window reads as after a byte was placed in it. -/
theorem peek_place_of_prgRom {b : Bus} (hw : b.wf = true) (hb : 0 < b.cart.prgBanks) {a a' : Word}
    (h : region a = .prgRom) (h' : region a' = .prgRom) (v : Byte) :
    (b.place a v).peek a' = if prgIndex b.cart a = prgIndex b.cart a' then v else b.peek a' := by
  simp only [Bus.wf, Bool.and_eq_true] at hw
  obtain ⟨⟨-, hprg⟩, -⟩ := hw
  have hlt := prgIndex_lt_of_bank hb h'
  have hread := Memory.read_write hprg (prgIndex b.cart a) (prgIndex b.cart a') v
  rw [place_of_prgRom hb h]
  simp only [Bus.peek, h', if_pos hlt, ← hread]
  exact if_pos hlt

/-- The two bytes of the reset vector are two bytes of the image, however it is mapped. -/
theorem prgIndex_resetVector_ne_succ (c : Cart) :
    prgIndex c Config.resetVector ≠ prgIndex c (Config.resetVector + 1#16) := by
  unfold prgIndex
  by_cases h : c.prgLength = 0x4000 <;> simp [h, Config.resetVector]

@[simp] theorem setVector_prgBanks (o : Word) (b : Bus) : (b.setVector o).cart.prgBanks = b.cart.prgBanks := by
  simp [Bus.setVector]

theorem setVector_ram {b : Bus} (hb : 0 < b.cart.prgBanks) (o : Word) : (b.setVector o).ram = b.ram := by
  rw [Bus.setVector, place_of_prgRom (by simpa using hb) region_resetVector_succ,
    place_of_prgRom hb region_resetVector]

/-- The vector that load sets is the one reset reads (spec/70_reset_and_hazards.md R461, R462). -/
theorem peek16_setVector {b : Bus} (hw : b.wf = true) (hb : 0 < b.cart.prgBanks) (o : Word) :
    (b.setVector o).peek16 Config.resetVector = o := by
  have hw1 : (b.place Config.resetVector (lowByte o)).wf = true := Bus.wf_place hw _ _
  have hb1 : 0 < (b.place Config.resetVector (lowByte o)).cart.prgBanks := by rwa [place_prgBanks]
  have hhigh : (b.setVector o).peek (Config.resetVector + 1#16) = highByte o := by
    rw [Bus.setVector, peek_place_of_prgRom hw1 hb1 region_resetVector_succ region_resetVector_succ, if_pos rfl]
  have hlow : (b.setVector o).peek Config.resetVector = lowByte o := by
    rw [Bus.setVector, peek_place_of_prgRom hw1 hb1 region_resetVector_succ region_resetVector,
      if_neg (prgIndex_resetVector_ne_succ _).symm, peek_place_of_prgRom hw hb region_resetVector region_resetVector,
      if_pos rfl]
  rw [Bus.peek16, hhigh, hlow, wordOf_high_low]

/-- An address of the first copy of RAM is RAM. -/
theorem region_of_lt {a : Word} (h : a.toNat < 0x800) : region a = .ram := by
  rw [region_eq, if_pos (by omega)]

/-- An address of the first copy of RAM is its own RAM index (spec/20_memory.md R62). -/
theorem ramIndex_of_lt {a : Word} (h : a.toNat < 0x800) : ramIndex a = a.toNat := by
  rw [ramIndex_eq, Nat.mod_eq_of_lt h]

theorem peek_of_lt (b : Bus) {a : Word} (h : a.toNat < 0x800) : b.peek a = b.ram.read a.toNat := by
  simp only [Bus.peek, region_of_lt h, ramIndex_of_lt h]

/-- Loading a program into the first copy of RAM: it has storage, nothing but the RAM changes, and there the program
stands in place. -/
theorem loadBytes_ram {b : Bus} (hw : b.ram.wf 0x800 = true) (a : Nat) (l : List Byte) (h : a + l.length ≤ 0x800) :
    ∃ c, loadBytes a l b = some c ∧ c.cart = b.cart ∧
      ∀ k, c.ram.read k = if a ≤ k ∧ k < a + l.length then l.getD (k - a) 0x00#8 else b.ram.read k := by
  induction l generalizing a b with
  | nil => exact ⟨b, rfl, rfl, fun k => by rw [if_neg (by simp)]⟩
  | cons v l ih =>
    simp only [List.length_cons] at h ⊢
    have hnat : (BitVec.ofNat 16 a).toNat = a := by rw [BitVec.toNat_ofNat]; omega
    have hlt : (BitVec.ofNat 16 a).toNat < 0x800 := by omega
    have hstore : b.hasStorage (BitVec.ofNat 16 a) = true := by simp only [Bus.hasStorage, region_of_lt hlt]
    have hplace : b.place (BitVec.ofNat 16 a) v = { b with ram := b.ram.write a v } := by
      rw [place_of_ram (region_of_lt hlt), ramIndex_of_lt hlt, hnat]
    obtain ⟨c, hload, hcart, hread⟩ := ih (b := { b with ram := b.ram.write a v }) (Memory.wf_write (by omega) hw) (a + 1)
      (by omega)
    refine ⟨c, by rw [loadBytes, if_pos hstore, hplace, hload], hcart, fun k => ?_⟩
    rw [hread k, Memory.read_write hw]
    rcases Nat.lt_trichotomy k a with hk | rfl | hk
    · rw [if_neg (by omega), if_neg (by omega), if_neg (by omega)]
    · rw [if_neg (by omega), if_pos rfl, if_pos (by omega), Nat.sub_self, List.getD_cons_zero]
    · obtain ⟨n, rfl⟩ : ∃ n, k = a + 1 + n := ⟨k - (a + 1), by omega⟩
      have hsub : a + 1 + n - a = n + 1 := by omega
      rw [hsub, Nat.add_sub_cancel_left, List.getD_cons_succ, if_neg (by omega : ¬ a = a + 1 + n)]
      exact if_congr (by omega) rfl rfl

/-! ## load and load_and_run -/

/-- A load whose bytes all have storage, on a harness cartridge with a PRG bank (R462). -/
theorem hostLoad_ok {program : List Byte} {o : Word} {s : State} {b : Bus} (hlive : s.run.live = true)
    (hharness : s.bus.cart.harness = true) (hlen : o.toNat + program.length ≤ 0x10000)
    (hload : loadBytes o.toNat program s.bus = some b) (hb : 0 < b.cart.prgBanks) :
    hostLoad program o s = .next { s with bus := b.setVector o } := by
  have hstore : b.hasStorage Config.resetVector = true := by
    simp only [Bus.hasStorage, region_resetVector, prgIndex_lt_of_bank hb region_resetVector, decide_true]
  rw [hostLoad, unlessFaulted_of_live hlive, if_pos hharness, if_neg (by omega), hload]
  exact if_pos hstore

/-- load_and_run is the run of the state its load and reset leave, where that reset does not fault (R468). -/
theorem loadAndRun_of_hostLoad {p : Config.Params} {program : List Byte} {s t : State}
    (hload : hostLoad program p.loadOrigin s = .next t) (hrun : (resetSession t).run = .running) (fuel : Nat) :
    loadAndRun p program fuel s = .next (runLoop (fun _ _ => HookCall.noop) fuel (resetSession t)) := by
  have hlive : (resetSession t).run.live = true := by rw [hrun]; rfl
  have hset : (resetSession t).setRun .running = resetSession t := by rw [State.setRun, ← hrun]
  simp only [loadAndRun, hload, hostRun, hostRunWith, unlessFaulted_of_live hlive, hset]

/-! ## The statements -/

/-- Settles O56: construction by `newSession`, reset by the cases of the PRG banks, and the refusal in Faulted. -/
theorem resetOperation : Obligations.ResetOperation := by
  refine ⟨fun p src c => ⟨fun r h => ?_, fun cart h => ?_⟩, fun s => ⟨fun hlive hb => ?_, fun hlive hb => ?_, ?_⟩⟩
  · simp only [newSession, h]
  · refine ⟨_, newSession_ok p c h, rfl, rfl, rfl, rfl, rfl, ?_, fun k hk => ?_, ?_⟩
    -- The projection is reduced first: the unifier would evaluate the RAM of 2048 bytes.
    · dsimp only
      exact wf_initialRam p.ramInit
    · dsimp only
      exact read_initialRam p.ramInit hk
    · rintro rfl
      exact (Except.ok.inj h).symm
  · refine ⟨resetSession s, unlessFaulted_of_live hlive _, ?_⟩
    rw [resetSession_of_bank hb]
    exact ⟨rfl, rfl, rfl, rfl, rfl, rfl⟩
  · refine ⟨resetSession s, unlessFaulted_of_live hlive _, ?_⟩
    rw [resetSession_of_no_bank hb]
    exact ⟨rfl, rfl, rfl, rfl⟩
  · exact fun f site h => unlessFaulted_of_faulted h _

/-- Settles O57: the bytes stand in RAM by `loadBytes_ram`, the vector set after them leaves RAM alone, and reset reads
that vector. -/
theorem loadThenReset : Obligations.LoadThenReset := by
  intro program o s hw hlive hharness hb hlen
  have hram : s.bus.ram.wf 0x800 = true := by
    simp only [Bus.wf, Bool.and_eq_true] at hw
    obtain ⟨⟨hram, -⟩, -⟩ := hw
    exact hram
  obtain ⟨b, hload, hcart, hread⟩ := loadBytes_ram hram o.toNat program hlen
  have hwb : b.wf = true := Bus.wf_loadBytes hw _ _ hload
  have hbb : 0 < b.cart.prgBanks := by rwa [hcart]
  have ht := hostLoad_ok hlive hharness (by omega) hload hbb
  have hreset := resetSession_of_bank (s := { s with bus := b.setVector o }) (by rwa [setVector_prgBanks])
  refine ⟨_, _, ht, rfl, rfl, rfl, (unlessFaulted_of_live hlive _).trans (congrArg _ hreset),
    peek16_setVector hwb hbb o, rfl, fun k hk => ?_, ?_⟩
  · have haddr : (o + BitVec.ofNat 16 k).toNat = o.toNat + k := by
      rw [BitVec.toNat_add, BitVec.toNat_ofNat]; omega
    change (b.setVector o).peek (o + BitVec.ofNat 16 k) = _
    rw [peek_of_lt _ (by omega), haddr, setVector_ram hbb, hread, if_pos (by omega), Nat.add_sub_cancel_left]
  · rintro p fuel rfl
    rw [loadAndRun_of_hostLoad ht (by rw [hreset]), hreset]

end Sys2Proof.Machine
end

section
/-! Proofs for spec/10_state.md: what every step keeps (cartridge, policy, canonical memories, U and B), and that no
step depends on the diagnostic events. First the ways a step can end, then events put before a run as a map that every
operation commutes with, then the statements. -/

namespace Sys2Proof.Machine

/-! ## The ways a step can end -/

/-- Everything a step of a Running session can do: the hook faults, the fetch after it faults, or the fetched
instruction runs (spec/40_execution.md R131). -/
theorem stepWith_cases {c : HookCall} {s t : State} (h : stepWith c s = .next t) :
    s.run = .running ∧
      ((∃ f u, callHook c s = .raise f u ∧ t = u.enterFaulted f .hook) ∨
        (∃ u f v, callHook c s = .ok () u ∧ fetch u = .raise f v ∧ t = v.enterFaulted f (.opcodeAt u.cpu.pc)) ∨
        ∃ u i v, callHook c s = .ok () u ∧ fetch u = .ok i v ∧ exec i v = .next t) := by
  unfold stepWith at h
  cases hrun : s.run with
  | halted | faulted f site => simp [hrun] at h
  | running =>
    refine ⟨rfl, ?_⟩
    simp only [hrun] at h
    cases hhook : callHook c s with
    | raise f u =>
      simp only [hhook] at h
      exact .inl ⟨f, u, rfl, (Host.Outcome.next.inj h).symm⟩
    | ok _ u =>
      simp only [hhook] at h
      cases hfetch : fetch u with
      | raise f v =>
        simp only [hfetch] at h
        exact .inr (.inl ⟨u, f, v, rfl, hfetch, (Host.Outcome.next.inj h).symm⟩)
      | ok i v =>
        simp only [hfetch] at h
        exact .inr (.inr ⟨u, i, v, rfl, hfetch, h⟩)

theorem keeps_setRun (r : Run) (s : State) : Keeps s (s.setRun r) := ⟨rfl, rfl, rfl, List.prefix_refl _, id⟩

theorem keeps_enterFaulted (f : Fault) (site : Site) (s : State) : Keeps s (s.enterFaulted f site) :=
  ⟨rfl, rfl, rfl, List.prefix_refl _, id⟩

/-- The cartridge is the same and the RAM keeps its form, so every memory is in canonical form as before. -/
theorem Keeps.bus_wf {s t : State} (h : Keeps s t) (hw : s.bus.wf = true) : t.bus.wf = true := by
  simp only [Bus.wf, Bool.and_eq_true, h.cart] at hw ⊢
  obtain ⟨⟨hram, hprg⟩, hchr⟩ := hw
  exact ⟨⟨h.ram hram, hprg⟩, hchr⟩

/-- The part of `Keeps` and `StatusKept` that holds wherever a step ends: nothing is said of the registers of a Faulted
state (spec/60_exceptions.md R403). -/
def KeepsLive (s t : State) : Prop := Keeps s t ∧ (t.run.live = true → StatusKept s.cpu t.cpu)

theorem keepsLive_of_faulted {s t : State} {f : Fault} {site : Site} (h : Keeps s t) (hrun : t.run = .faulted f site) :
    KeepsLive s t := ⟨h, fun hlive => by simp [hrun, Run.live] at hlive⟩

theorem exec_keepsLive {i : Instr} {s t : State} (h : exec i s = .next t) : KeepsLive s t := by
  obtain ⟨t', hnext, hends⟩ := exec_ends i s
  obtain rfl : t' = t := Host.Outcome.next.inj (hnext.symm.trans h)
  rcases hends with ⟨hkeeps, ⟨-, hstatus⟩ | ⟨f, hrun, -⟩⟩ | ⟨-, rfl⟩ | ⟨-, hkeeps, hrun⟩
  · exact ⟨hkeeps, fun _ => hstatus⟩
  · exact keepsLive_of_faulted hkeeps hrun
  · exact ⟨keeps_setRun _ s, fun _ => .refl _⟩
  · exact keepsLive_of_faulted hkeeps hrun

/-- Everything a step keeps, whatever the hook does and whatever instruction it fetches. -/
theorem stepWith_keepsLive {c : HookCall} {s t : State} (h : stepWith c s = .next t) : KeepsLive s t := by
  have hhook := callHook_sound c s
  obtain ⟨-, ⟨f, u, hu, rfl⟩ | ⟨u, f, v, hu, hv, rfl⟩ | ⟨u, i, v, hu, hv, hexec⟩⟩ := stepWith_cases h
  · rw [hu] at hhook
    obtain ⟨hkeeps, -⟩ := hhook
    exact keepsLive_of_faulted (hkeeps.trans (keeps_enterFaulted f .hook u)) rfl
  · have hfetch := fetch_sound u
    rw [hu] at hhook
    rw [hv] at hfetch
    obtain ⟨hkeeps, -⟩ := hhook
    obtain ⟨hkeeps', -⟩ := hfetch
    exact keepsLive_of_faulted ((hkeeps.trans hkeeps').trans (keeps_enterFaulted f _ v)) rfl
  · have hfetch := fetch_sound u
    rw [hu] at hhook
    rw [hv] at hfetch
    obtain ⟨hkeeps, -, hstatus⟩ := hhook
    obtain ⟨hkeeps', -, hstatus'⟩ := hfetch
    obtain ⟨hkeeps'', hstatus''⟩ := exec_keepsLive hexec
    exact ⟨(hkeeps.trans hkeeps').trans hkeeps'', fun hlive => (hstatus.trans hstatus').trans (hstatus'' hlive)⟩

/-! ## Events put before a run -/

/-- The state whose session had these events before its own. -/
def State.withEarlier (d : List Event) (s : State) : State := { s with diag := d ++ s.diag }

/-- The same end of a part of a step, in the state with these events before its own. -/
def Res.withEarlier {α : Type} (d : List Event) : Res α → Res α
  | .ok v s => .ok v (s.withEarlier d)
  | .raise f s => .raise f (s.withEarlier d)

/-- The same answer of an instruction or a step, with these events before those of its next state. -/
def Out.withEarlier (d : List Event) : Out → Out
  | .next s => .next (s.withEarlier d)
  | .fault f => .fault f
  | .refused r => .refused r

/-- Two parts of a step in sequence commute with earlier events when each does. -/
theorem bind_withEarlier {α β : Type} {d : List Event} {r r' : Res α} {k k' : α → State → Res β}
    (hr : r' = r.withEarlier d) (hk : ∀ v t, k' v (t.withEarlier d) = (k v t).withEarlier d) :
    r'.bind k' = (r.bind k).withEarlier d := by
  subst hr
  cases r with
  | ok v t => exact hk v t
  | raise f t => rfl

theorem warn_withEarlier (d : List Event) (e : Event) (s : State) :
    (s.withEarlier d).warn e = (s.warn e).withEarlier d := by
  simp [State.warn, State.withEarlier]

theorem logReads_withEarlier (d : List Event) (l : List Word) (s : State) :
    (s.withEarlier d).logReads l = (s.logReads l).withEarlier d := by
  simp [State.logReads, State.withEarlier]

theorem wrote_withEarlier (d : List Event) (a : Word) (v : Byte) (s : State) :
    (s.withEarlier d).wrote a v = (s.wrote a v).withEarlier d := by
  unfold State.wrote
  split
  · rfl
  · exact warn_withEarlier d _ s
  · exact warn_withEarlier d _ s
  · rfl

theorem memRead_withEarlier (d : List Event) (a : Word) (s : State) :
    memRead a (s.withEarlier d) = (memRead a s).withEarlier d := by
  simp only [memRead_eq, logReads_withEarlier]
  change (if s.bus.readable a = true then _ else _) = _
  split <;> rfl

theorem memWrite_withEarlier (d : List Event) (a : Word) (v : Byte) (s : State) :
    memWrite a v (s.withEarlier d) = (memWrite a v s).withEarlier d := by
  simp only [memWrite_eq, wrote_withEarlier]
  split <;> rfl

theorem memRead16_withEarlier (d : List Event) (a : Word) (s : State) :
    memRead16 a (s.withEarlier d) = (memRead16 a s).withEarlier d :=
  bind_withEarlier (memRead_withEarlier d a s) fun _ t => bind_withEarlier (memRead_withEarlier d _ t) fun _ _ => rfl

theorem operandByte_withEarlier (d : List Event) (b : Byte) (s : State) :
    operandByte b (s.withEarlier d) = (operandByte b s).withEarlier d :=
  bind_withEarlier (memRead_withEarlier d _ s) fun _ _ => rfl

theorem operandWord_withEarlier (d : List Event) (w : Word) (s : State) :
    operandWord w (s.withEarlier d) = (operandWord w s).withEarlier d :=
  bind_withEarlier (memRead16_withEarlier d _ s) fun _ _ => rfl

theorem zpRead16_withEarlier (d : List Event) (p : Byte) (s : State) :
    zpRead16 p (s.withEarlier d) = (zpRead16 p s).withEarlier d :=
  bind_withEarlier (memRead_withEarlier d _ s) fun _ t => bind_withEarlier (memRead_withEarlier d _ t) fun _ _ => rfl

theorem resolve_withEarlier (d : List Event) (op : Byte) (o : Operand) (s : State) :
    resolve op o (s.withEarlier d) = (resolve op o s).withEarlier d := by
  cases o with
  | imm _ | imp | acc | dest _ | rel _ | ind _ => rfl
  | zp b | zpX b | zpY b => exact bind_withEarlier (operandByte_withEarlier d b s) fun _ _ => rfl
  | abs w => exact operandWord_withEarlier d w s
  | absX w | absY w => exact bind_withEarlier (operandWord_withEarlier d w s) fun _ _ => rfl
  | indX b => exact bind_withEarlier (operandByte_withEarlier d b s) fun _ t => zpRead16_withEarlier d _ t
  | indY b =>
    exact bind_withEarlier (operandByte_withEarlier d b s) fun _ t =>
      bind_withEarlier (zpRead16_withEarlier d _ t) fun _ _ => rfl

theorem readOperand_withEarlier (d : List Event) (i : Instr) (s : State) :
    readOperand i (s.withEarlier d) = (readOperand i s).withEarlier d := by
  unfold readOperand
  split
  · exact operandByte_withEarlier d _ s
  · exact bind_withEarlier (resolve_withEarlier d _ _ s) fun a t => memRead_withEarlier d a t

theorem push_withEarlier (d : List Event) (v : Byte) (s : State) :
    push v (s.withEarlier d) = (push v s).withEarlier d :=
  bind_withEarlier (memWrite_withEarlier d _ v s) fun _ _ => rfl

theorem pop_withEarlier (d : List Event) (s : State) : pop (s.withEarlier d) = (pop s).withEarlier d :=
  memRead_withEarlier d _ (s.setSp (s.cpu.sp + 1#8))

theorem push16_withEarlier (d : List Event) (w : Word) (s : State) :
    push16 w (s.withEarlier d) = (push16 w s).withEarlier d :=
  bind_withEarlier (push_withEarlier d _ s) fun _ t => push_withEarlier d _ t

theorem pop16_withEarlier (d : List Event) (s : State) : pop16 (s.withEarlier d) = (pop16 s).withEarlier d :=
  bind_withEarlier (pop_withEarlier d s) fun _ t => bind_withEarlier (pop_withEarlier d t) fun _ _ => rfl

theorem hookReads_withEarlier (d : List Event) (l : List Word) (s : State) :
    hookReads l (s.withEarlier d) = (hookReads l s).withEarlier d := by
  induction l generalizing s with
  | nil => rfl
  | cons a l ih => exact bind_withEarlier (memRead_withEarlier d a s) fun _ t => ih t

theorem hookWrites_withEarlier (d : List Event) (l : List (Word × Byte)) (s : State) :
    hookWrites l (s.withEarlier d) = (hookWrites l s).withEarlier d := by
  induction l generalizing s with
  | nil => rfl
  | cons w l ih => exact bind_withEarlier (memWrite_withEarlier d w.1 w.2 s) fun _ t => ih t

theorem callHook_withEarlier (d : List Event) (c : HookCall) (s : State) :
    callHook c (s.withEarlier d) = (callHook c s).withEarlier d :=
  bind_withEarlier (hookReads_withEarlier d _ s) fun _ t => hookWrites_withEarlier d _ t

theorem fetch_withEarlier (d : List Event) (s : State) : fetch (s.withEarlier d) = (fetch s).withEarlier d :=
  bind_withEarlier (memRead_withEarlier d _ s) fun _ _ => rfl

theorem unstableAccesses_withEarlier (d : List Event) (stores : Bool) (a : Word) (l : List Config.UnstableAccess)
    (s : State) : unstableAccesses stores a l (s.withEarlier d) = (unstableAccesses stores a l s).withEarlier d := by
  induction l generalizing s with
  | nil => rfl
  | cons x l ih =>
    cases x with
    | read => exact bind_withEarlier (memRead_withEarlier d a s) fun _ t => ih t
    | write v =>
      refine bind_withEarlier ?_ fun _ t => ih t
      cases stores
      · rfl
      · exact memWrite_withEarlier d a v s

/-! ## Instructions -/

theorem finish_withEarlier {d : List Event} (i : Instr) {s : State} {r r' : Res Flow} (h : r' = r.withEarlier d) :
    finish i (s.withEarlier d) r' = Out.withEarlier d (finish i s r) := by
  subst h
  cases r with
  | ok v t => cases v <;> rfl
  | raise f t => rfl

theorem implied_withEarlier (d : List Event) (i : Instr) (f : Cpu → Cpu) (s : State) :
    implied i f (s.withEarlier d) = Out.withEarlier d (implied i f s) := rfl

theorem withOperand_withEarlier (d : List Event) (i : Instr) (f : Byte → Cpu → Cpu) (s : State) :
    withOperand i f (s.withEarlier d) = Out.withEarlier d (withOperand i f s) :=
  finish_withEarlier i (bind_withEarlier (readOperand_withEarlier d i s) fun _ _ => rfl)

theorem storing_withEarlier (d : List Event) (i : Instr) (v : Cpu → Byte) (s : State) :
    storing i v (s.withEarlier d) = Out.withEarlier d (storing i v s) :=
  finish_withEarlier i (bind_withEarlier (resolve_withEarlier d _ _ s) fun a t =>
    bind_withEarlier (memWrite_withEarlier d a (v t.cpu) t) fun _ _ => rfl)

theorem modifying_withEarlier (d : List Event) (i : Instr) (f : Byte → Cpu → Byte × Cpu) (after : Byte → Cpu → Cpu)
    (s : State) : modifying i f after (s.withEarlier d) = Out.withEarlier d (modifying i f after s) :=
  finish_withEarlier i (bind_withEarlier (resolve_withEarlier d _ _ s) fun a t =>
    bind_withEarlier (memRead_withEarlier d a t) fun m u =>
      bind_withEarlier (memWrite_withEarlier d a (f m u.cpu).1 (u.setCpu (f m u.cpu).2)) fun _ _ => rfl)

theorem branch_withEarlier (d : List Event) (i : Instr) (cond : Cpu → Bool) (s : State) :
    branch i cond (s.withEarlier d) = Out.withEarlier d (branch i cond s) := by
  refine finish_withEarlier i ?_
  change (if cond s.cpu then _ else _) = _
  split
  · exact bind_withEarlier (operandByte_withEarlier d _ s) fun _ _ => rfl
  · rfl

theorem pushing_withEarlier (d : List Event) (i : Instr) (v : Cpu → Byte) (s : State) :
    pushing i v (s.withEarlier d) = Out.withEarlier d (pushing i v s) :=
  finish_withEarlier i (bind_withEarlier (push_withEarlier d (v s.cpu) s) fun _ _ => rfl)

theorem pulling_withEarlier (d : List Event) (i : Instr) (f : Byte → Cpu → Cpu) (s : State) :
    pulling i f (s.withEarlier d) = Out.withEarlier d (pulling i f s) :=
  finish_withEarlier i (bind_withEarlier (pop_withEarlier d s) fun _ _ => rfl)

theorem shifting_withEarlier (d : List Event) (i : Instr) (f : Byte → Cpu → Byte × Cpu) (s : State) :
    shifting i f (s.withEarlier d) = Out.withEarlier d (shifting i f s) := by
  unfold shifting
  split
  · exact implied_withEarlier d i _ s
  · exact modifying_withEarlier d i f _ s

theorem unimplemented_withEarlier (d : List Event) (i : Instr) (s : State) :
    unimplemented i (s.withEarlier d) = Out.withEarlier d (unimplemented i s) := rfl

/-- UNSTABLE_SEM is a function of the opcode, the registers and the Bus, so events do not reach it. -/
theorem unstable_withEarlier (d : List Event) (i : Instr) (stores : Bool) (write : Config.UnstableEffect → Cpu → Cpu)
    (s : State) : unstable i stores write (s.withEarlier d) = Out.withEarlier d (unstable i stores write s) := by
  have hpolicy : (s.withEarlier d).policy = s.policy := rfl
  unfold unstable
  rw [hpolicy]
  cases s.policy with
  | fault => exact unimplemented_withEarlier d i s
  | implemented =>
    exact finish_withEarlier i (bind_withEarlier (resolve_withEarlier d _ _ s) fun a t =>
      bind_withEarlier (unstableAccesses_withEarlier d stores a _ t) fun _ _ => rfl)

theorem opJmpAbs_withEarlier (d : List Event) (i : Instr) (s : State) :
    opJmpAbs i (s.withEarlier d) = Out.withEarlier d (opJmpAbs i s) :=
  finish_withEarlier i (bind_withEarlier (operandWord_withEarlier d _ s) fun _ _ => rfl)

theorem opJmpInd_withEarlier (d : List Event) (i : Instr) (s : State) :
    opJmpInd i (s.withEarlier d) = Out.withEarlier d (opJmpInd i s) :=
  finish_withEarlier i (bind_withEarlier (operandWord_withEarlier d _ s) fun _ t =>
    bind_withEarlier (memRead_withEarlier d _ t) fun _ u => bind_withEarlier (memRead_withEarlier d _ u) fun _ _ => rfl)

theorem opJsr_withEarlier (d : List Event) (i : Instr) (s : State) :
    opJsr i (s.withEarlier d) = Out.withEarlier d (opJsr i s) :=
  finish_withEarlier i (bind_withEarlier (push16_withEarlier d _ s) fun _ t =>
    bind_withEarlier (memRead16_withEarlier d _ t) fun _ _ => rfl)

theorem opRts_withEarlier (d : List Event) (i : Instr) (s : State) :
    opRts i (s.withEarlier d) = Out.withEarlier d (opRts i s) :=
  finish_withEarlier i (bind_withEarlier (pop16_withEarlier d s) fun _ _ => rfl)

theorem opRti_withEarlier (d : List Event) (i : Instr) (s : State) :
    opRti i (s.withEarlier d) = Out.withEarlier d (opRti i s) :=
  finish_withEarlier i (bind_withEarlier (pop_withEarlier d s) fun b t =>
    bind_withEarlier (pop16_withEarlier d (t.mapCpu fun c => { c with p := restoredStatus b })) fun _ _ => rfl)

/-- Every instruction does the same after earlier events: each mnemonic's meaning has one of the shapes above, or is a
jump, call or return, or BRK. -/
theorem exec_withEarlier (d : List Event) (i : Instr) (s : State) :
    exec i (s.withEarlier d) = Out.withEarlier d (exec i s) := by
  rw [exec_byMnem, exec_byMnem]
  cases i.mnem <;> simp only [byMnem]
  case lda | ldx | ldy | adc | sbc | and | ora | eor | bit | cmp | cpx | cpy | lax | anc | alr | arr | axs =>
    exact withOperand_withEarlier d i _ s
  case sta | stx | sty | sax => exact storing_withEarlier d i _ s
  case tax | tay | txa | tya | tsx | txs | inx | iny | dex | dey | clc | sec | cli | sei | clv | cld | sed =>
    exact implied_withEarlier d i _ s
  case inc | dec | slo | rla | sre | rra | dcp | isb => exact modifying_withEarlier d i _ _ s
  case asl | lsr | rol | ror => exact shifting_withEarlier d i _ s
  case bpl | bmi | bvc | bvs | bcc | bcs | bne | beq => exact branch_withEarlier d i _ s
  case pha | php => exact pushing_withEarlier d i _ s
  case pla | plp => exact pulling_withEarlier d i _ s
  case xaa | lxa | ahx | tas | shy | shx | las => exact unstable_withEarlier d i _ _ s
  case jam => exact unimplemented_withEarlier d i s
  case jsr => exact opJsr_withEarlier d i s
  case rts => exact opRts_withEarlier d i s
  case rti => exact opRti_withEarlier d i s
  case brk => rfl
  case jmp =>
    split
    · exact opJmpInd_withEarlier d i s
    · exact opJmpAbs_withEarlier d i s
  case nop =>
    split
    · exact implied_withEarlier d i _ s
    · exact withOperand_withEarlier d i _ s

/-! ## The step -/

theorem stepWith_withEarlier (d : List Event) (c : HookCall) (s : State) :
    stepWith c (s.withEarlier d) = Out.withEarlier d (stepWith c s) := by
  have hrun : (s.withEarlier d).run = s.run := rfl
  unfold stepWith
  rw [hrun, callHook_withEarlier]
  cases s.run with
  | halted | faulted f site => rfl
  | running =>
    cases callHook c s with
    | raise f t => rfl
    | ok _ t =>
      simp only [Res.withEarlier, fetch_withEarlier]
      cases fetch t with
      | raise f u => rfl
      | ok i u => exact exec_withEarlier d i u

theorem step_withEarlier (d : List Event) (s : State) : step (s.withEarlier d) = Out.withEarlier d (step s) :=
  stepWith_withEarlier d s.nextHook s.popHook

/-- A state is its events put before the same state without any. -/
theorem eq_withEarlier (d : List Event) (s : State) :
    { s with diag := d } = State.withEarlier d { s with diag := [] } := by
  simp [State.withEarlier]

theorem eq_next_of_withEarlier {d : List Event} {o : Out} {t : State} (h : Out.withEarlier d o = .next t) :
    ∃ t', o = .next t' ∧ t = t'.withEarlier d := by
  cases o with
  | next t' => exact ⟨t', rfl, (Host.Outcome.next.inj h).symm⟩
  | fault f => cases h
  | refused r => cases h

/-! ## The statements -/

/-- Settles O55: a step commutes with events put before it, and both states are the same state with events put before
it. -/
theorem eventsDoNotInfluenceSteps : Obligations.EventsDoNotInfluenceSteps := by
  intro s t d h
  have hs : s = State.withEarlier s.diag { s with diag := [] } := eq_withEarlier s.diag s
  rw [hs, step_withEarlier] at h
  obtain ⟨u, hu, rfl⟩ := eq_next_of_withEarlier h
  have hother : step { s with diag := d } = .next (u.withEarlier d) := by
    rw [eq_withEarlier, step_withEarlier, hu]
    rfl
  exact ⟨u.diag, u.withEarlier d, rfl, hother, rfl, rfl, rfl, rfl, rfl, fun _ => rfl⟩

/-- Settles O52: a step that answers a next state began in Running, where U = 1, and keeps the memories' form, U and
B. -/
theorem stepKeepsInv : Obligations.StepKeepsInv := by
  intro s t ⟨hwf, hu⟩ h
  obtain ⟨hrun, -⟩ := stepWith_cases h
  obtain ⟨hkeeps, hstatus⟩ := stepWith_keepsLive h
  have hset : s.cpu.flag .u = true := hu (congrArg Run.live hrun)
  exact ⟨⟨hkeeps.bus_wf hwf, fun hlive => (hstatus hlive).1 hset⟩, fun hlive => (hstatus hlive).2⟩

/-- Settles O54: what a step keeps after its hook call was taken from the list. -/
theorem stepKeepsCartridge : Obligations.StepKeepsCartridge := by
  intro s t h
  obtain ⟨hkeeps, -⟩ := stepWith_keepsLive h
  exact ⟨hkeeps.cart, hkeeps.policy, hkeeps.hooks, hkeeps.diag⟩

/-- Settles O53: the memories of `State.reset` list no byte, and P is 0x24. -/
theorem resetHasInv : Obligations.ResetHasInv := ⟨⟨rfl, fun _ => rfl⟩, rfl⟩

end Sys2Proof.Machine
end

section
/-! Proofs for spec/20_memory.md: the Bus by region, RAM mirroring, the PRG window, 16-bit accesses, the faults of an
instruction's reads and writes, and the loader. First what each operation does by the number of its address, then the
three shapes of an instruction with an address and the reads they start with, then the statements. -/

namespace Sys2Proof.Machine

/-! ## The regions, by the number of the address -/

theorem region_of_le_1FFF {a : Word} (h : a.toNat ≤ 0x1FFF) : region a = .ram := by
  rw [region_eq, if_pos h]

theorem region_of_ppuStub {a : Word} (h : 0x2000 ≤ a.toNat) (h' : a.toNat ≤ 0x3FFF) : region a = .ppuStub := by
  rw [region_eq, if_neg (by omega), if_pos h']

theorem region_of_unmapped {a : Word} (h : 0x4000 ≤ a.toNat) (h' : a.toNat ≤ 0x7FFF) : region a = .unmapped := by
  rw [region_eq, if_neg (by omega), if_neg (by omega), if_neg (by omega)]

theorem region_of_8000_le {a : Word} (h : 0x8000 ≤ a.toNat) : region a = .prgRom := by
  rw [region_eq, if_neg (by omega), if_neg (by omega), if_pos h]

/-! ## RAM mirroring -/

theorem peek_of_ram {a : Word} (h : a.toNat ≤ 0x1FFF) (b : Bus) : b.peek a = b.ram.read (ramIndex a) := by
  simp only [Bus.peek, region_of_le_1FFF h]

/-- In the RAM window, two addresses reach one byte exactly when they agree under 0x07FF (spec/20_memory.md R62). -/
theorem sameRamByte_iff {a a' : Word} (h : a.toNat ≤ 0x1FFF) (h' : a'.toNat ≤ 0x1FFF) :
    sameRamByte a a' = true ↔ a &&& 0x07FF#16 = a' &&& 0x07FF#16 := by
  simp only [sameRamByte, region_of_le_1FFF h, region_of_le_1FFF h', beq_self_eq_true, Bool.true_and, beq_iff_eq]
  exact BitVec.toNat_inj

/-- An address of the first copy of RAM reads as its three mirrors (R62). -/
theorem peek_mirror (b : Bus) {a k : Word} (ha : a.toNat < 0x800) (hk : k ∈ [0x0800#16, 0x1000#16, 0x1800#16]) :
    b.peek (a + k) = b.peek a := by
  have hnum : k.toNat = 0x800 ∨ k.toNat = 0x1000 ∨ k.toNat = 0x1800 := by
    simp only [List.mem_cons, List.not_mem_nil, or_false] at hk
    rcases hk with rfl | rfl | rfl <;> simp
  have hsum : (a + k).toNat = a.toNat + k.toNat := by rw [BitVec.toNat_add]; omega
  rw [peek_of_ram (by omega), peek_of_ram (by omega), ramIndex_eq, ramIndex_eq]
  congr 1
  omega

theorem toNat_zext16 (z : Byte) : (zext16 z).toNat = z.toNat := by
  have hz := z.isLt
  simp only [zext16, BitVec.truncate_eq_setWidth, BitVec.toNat_setWidth]
  omega

/-- An address of the stack page, by its number (spec/20_memory.md R67). -/
theorem toNat_stackPage_add (z : Byte) : (0x0100#16 + zext16 z).toNat = 0x100 + z.toNat := by
  have hz := z.isLt
  rw [BitVec.toNat_add, toNat_zext16, BitVec.toNat_ofNat]
  omega

/-! ## The PRG window -/

theorem memRead_of_prgRom {a : Word} (h : 0x8000 ≤ a.toNat) (s : State) :
    memRead a s =
      if prgIndex s.bus.cart a < s.bus.cart.prgLength then .ok (s.bus.cart.prg.read (prgIndex s.bus.cart a)) s
      else .raise (.prgIndexOutOfRange a (prgIndex s.bus.cart a)) s := by
  simp only [memRead, region_of_8000_le h]

/-- One PRG bank is mirrored (spec/20_memory.md R65, decision D15). -/
theorem prgIndex_of_one_bank {c : Cart} (hb : c.prgBanks = 1) {a : Word} (h : 0x8000 ≤ a.toNat) :
    prgIndex c a = a.toNat % 0x4000 := by
  have hlen : c.prgLength = 0x4000 := by rw [Cart.prgLength, hb]
  rw [prgIndex, if_pos hlen]
  omega

/-- Any other number of PRG banks is mapped linearly (R65, decisions D13 and D38). -/
theorem prgIndex_of_banks {c : Cart} (hb : c.prgBanks ≠ 1) (a : Word) : prgIndex c a = a.toNat - 0x8000 := by
  have hlen : c.prgLength ≠ 0x4000 := by rw [Cart.prgLength]; omega
  rw [prgIndex, if_neg hlen]

/-! ## Writes -/

theorem memWrite_bad {a : Word} (v : Byte) (s : State) (h : writable a = false) :
    memWrite a v s = .raise (.illegalWrite a v) s := by
  rw [memWrite_eq, if_neg (by simp [h])]

theorem memWrite16_ok {a : Word} (v : Word) (s : State) (h : writable a = true) (h' : writable (a + 1#16) = true) :
    memWrite16 a v s = .ok () ((s.wrote a (lowByte v)).wrote (a + 1#16) (highByte v)) := by
  rw [memWrite16, memWrite_ok _ _ h, bind_ok, memWrite_ok _ _ h']

/-- Faulted is terminal: the run loop stops there, whatever the hook and the fuel (spec/60_exceptions.md R404). -/
theorem runLoop_of_faulted (hook : Cpu → Bus → HookCall) (n : Nat) {t : State} {f : Fault} {site : Site}
    (h : t.run = .faulted f site) : runLoop hook n t = some t := by
  cases n with
  | zero => simp [runLoop, h]
  | succ n => simp only [runLoop, h]

/-! ## The shapes of an instruction with an address -/

/-- The byte a store writes (spec/41_load_store_transfer.md R173 to R175; spec/46_unofficial.md R337). -/
def storedByte (m : Mnem) (c : Cpu) : Byte :=
  if m = .sta then c.a else if m = .stx then c.x else if m = .sty then c.y else c.a &&& c.x

/-- The mnemonics that read, modify and write their operand in its forms with an address. -/
def modifyMnems : List Mnem := [.inc, .dec, .asl, .lsr, .rol, .ror, .slo, .rla, .sre, .rra, .dcp, .isb]

/-- The byte a read-modify-write instruction writes back for the byte `b` (spec/42_arith_logic.md R209, R210;
spec/43_shift_rotate.md R250 to R253; spec/46_unofficial.md R330 to R335). -/
def modifiedByte (m : Mnem) (b : Byte) (c : Cpu) : Byte :=
  let carry : Byte := if c.flag .c then 0x01#8 else 0x00#8
  if m ∈ [.inc, .isb] then b + 1#8 else if m ∈ [.dec, .dcp] then b - 1#8
  else if m ∈ [.asl, .slo] then b <<< 1 else if m ∈ [.lsr, .sre] then b >>> 1
  else if m ∈ [.rol, .rla] then (b <<< 1) ||| carry else (b >>> 1) ||| (carry <<< 7)

theorem exec_of_store {i : Instr} (h : i.mnem ∈ storeMnems) (s : State) :
    exec i s = storing i (storedByte i.mnem) s := by
  rw [exec_byMnem]
  simp only [storeMnems, List.mem_cons, List.not_mem_nil, or_false] at h
  rcases h with h | h | h | h <;> rw [h] <;> rfl

theorem shifting_of_ne_acc {i : Instr} (h : i.operand ≠ .acc) (f : Byte → Cpu → Byte × Cpu) (s : State) :
    shifting i f s = modifying i f Cpu.setZN s := by
  unfold shifting
  split
  · contradiction
  · rfl

theorem exec_of_modify {i : Instr} (h : i.mnem ∈ modifyMnems) (hacc : i.operand ≠ .acc) (s : State) :
    ∃ f after, exec i s = modifying i f after s ∧ ∀ b c, (f b c).1 = modifiedByte i.mnem b c := by
  rw [exec_byMnem]
  simp only [modifyMnems, List.mem_cons, List.not_mem_nil, or_false] at h
  rcases h with h | h | h | h | h | h | h | h | h | h | h | h <;> rw [h] <;>
    simp only [byMnem, opInc, opDec, opAsl, opLsr, opRol, opRor, opSlo, opRla, opSre, opRra, opDcp, opIsb,
      shifting_of_ne_acc hacc] <;>
    exact ⟨_, _, rfl, fun _ _ => rfl⟩

/-- Every form of a store has an address. -/
theorem mode_of_store {i : Instr} (h : i.mnem ∈ storeMnems) : i.operand.mode ≠ .noneAddressing :=
  mode_ne_none fun hno => by
    simp only [storeMnems, List.mem_cons, List.not_mem_nil, or_false] at h
    rcases h with h | h | h | h <;> rw [h] at hno <;> exact absurd hno (by decide)

/-- Every form but the accumulator's of a read-modify-write instruction has an address. -/
theorem mode_of_modify {i : Instr} (h : i.mnem ∈ modifyMnems) (hacc : i.operand ≠ .acc) :
    i.operand.mode ≠ .noneAddressing := by
  by_cases hshift : i.mnem ∈ [.asl, .lsr, .rol, .ror]
  · exact mode_of_shift hshift hacc
  · refine mode_ne_none fun hno => ?_
    generalize i.mnem = m at h hshift hno
    revert m
    decide

/-- Of the mnemonics with a form without address, only the shifts and NOP have a form with one. -/
theorem mode_eq_none {i : Instr} (h : i.mnem ∈ noAddressMnems) (h' : i.mnem ∉ [.asl, .lsr, .rol, .ror, .nop]) :
    i.operand.mode = .noneAddressing := by
  have key : (decide (i.operand.mode = .noneAddressing) || decide (i.mnem ∉ noAddressMnems) ||
      decide (i.mnem ∈ [Mnem.asl, .lsr, .rol, .ror, .nop])) = true := by
    cases i <;> rfl
  simpa [h, h'] using key

theorem mode_of_form_imp {o : Operand} (h : o.form = .imp) : o.mode = .noneAddressing := by
  cases o
  case imp => rfl
  all_goals cases h

/-- An instruction with an address that is no store, no read-modify-write instruction and not unstable reads its operand
and updates the register file. -/
theorem exec_of_read {i : Instr} (hm : i.operand.mode ≠ .noneAddressing) (hu : i.mnem ∉ unstableMnems)
    (hs : i.mnem ∉ storeMnems) (hf : i.mnem ∉ modifyMnems) (s : State) : ∃ f, exec i s = withOperand i f s := by
  rw [exec_byMnem]
  cases hi : i.mnem
  case lda | ldx | ldy | adc | sbc | and | ora | eor | bit | cmp | cpx | cpy | lax | anc | alr | arr | axs =>
    exact ⟨_, rfl⟩
  case nop => exact ⟨_, if_neg fun himp => hm (mode_of_form_imp himp)⟩
  case sta | stx | sty | sax => exact absurd (hi ▸ by decide) hs
  case inc | dec | asl | lsr | rol | ror | slo | rla | sre | rra | dcp | isb => exact absurd (hi ▸ by decide) hf
  case xaa | lxa | ahx | tas | shy | shx | las => exact absurd (hi ▸ by decide) hu
  all_goals exact absurd (mode_eq_none (hi ▸ by decide) (hi ▸ by decide)) hm

/-! ## Reads in order, up to the first that faults

`hookReads` is the model's run of a list of Bus reads. An operand's reads are such a run too, and what follows them
needs only what Peek sees. -/

theorem Res.bind_assoc {α β γ : Type} (r : Res α) (k : α → State → Res β) (k' : β → State → Res γ) :
    (r.bind k).bind k' = r.bind fun v t => (k v t).bind k' := by
  cases r <;> rfl

theorem Res.bind_ok_right {α : Type} (r : Res α) : (r.bind fun v t => .ok v t) = r := by
  cases r <;> rfl

/-- Reads in order up to an address that cannot be read: those before it happen, then the fault is raised, and nothing
after it is reached. -/
theorem hookReads_bind_bad {α : Type} {l l' : List Word} {a : Word} {s : State} (hl : s.bus.readableAll l = true)
    (ha : s.bus.readable a = false) (k : Unit → State → Res α) :
    (hookReads (l ++ a :: l') s).bind k =
      .raise (.prgIndexOutOfRange a (prgIndex s.bus.cart a)) (s.logReads l) := by
  induction l generalizing s with
  | nil => simp [hookReads, memRead_bad ha]
  | cons x l ih =>
    simp only [Bus.readableAll, List.all_cons, Bool.and_eq_true] at hl
    obtain ⟨hx, hl⟩ := hl
    simpa [hookReads, memRead_ok hx] using ih (s := s.logReads [x]) hl ha

/-- An instruction that starts with reads enters Faulted at the first of them that cannot be done. -/
theorem finish_hookReads_bad {l l' : List Word} {a : Word} {s : State} (hl : s.bus.readableAll l = true)
    (ha : s.bus.readable a = false) (i : Instr) (k : Unit → State → Res Flow) :
    finish i s ((hookReads (l ++ a :: l') s).bind k) =
      .next ((s.logReads l).enterFaulted (.prgIndexOutOfRange a (prgIndex s.bus.cart a)) (.opcodeAt s.opcodeAddr)) := by
  rw [hookReads_bind_bad hl ha, finish_raise]

/-- A read after other reads gives the byte by Peek, for reads change nothing but the events (spec/20_memory.md R63). -/
theorem hookReads_bind_memRead {α : Type} (l : List Word) (a : Word) (s : State) (k : Byte → State → Res α) :
    ((hookReads l s).bind fun _ t => (memRead a t).bind k) =
      (hookReads (l ++ [a]) s).bind fun _ t => k (s.bus.peek a) t := by
  induction l generalizing s with
  | nil => cases h : s.bus.readable a <;> simp [hookReads, memRead_eq, h]
  | cons x l ih =>
    cases h : s.bus.readable x
    · simp [hookReads, memRead_bad h]
    · simpa [hookReads, memRead_ok h] using ih (s.logReads [x])

/-- EA of an operand that has an address is its reads in order, then the address by Peek. -/
theorem resolve_eq_reads (op : Byte) (o : Operand) (s : State) (hm : o.mode ≠ .noneAddressing) :
    resolve op o s = (hookReads (eaReads o s.cpu) s).bind fun _ t => .ok (peekEa o s.cpu s.bus) t := by
  cases o with
  | imp | acc | dest _ | rel _ | ind _ => exact absurd rfl hm
  | imm _ => rfl
  | zp b | zpX b | zpY b =>
    cases h : s.bus.readable s.cpu.pc <;> simp [resolve, operandByte, eaReads, peekEa, hookReads, memRead_eq, h]
  | abs w | absX w | absY w =>
    cases h : s.bus.readable s.cpu.pc <;> cases h' : s.bus.readable (s.cpu.pc + 1#16) <;>
      simp [resolve, operandWord, memRead16_eq, eaReads, peekEa, hookReads, memRead_eq, h, h']
  | indX b | indY b =>
    cases h : s.bus.readable s.cpu.pc <;>
      simp [resolve, operandByte, zpRead16_ok, eaReads, peekEa, hookReads, memRead_eq, readable_zext16, h]

/-- EA and a read there are the operand's reads in order, then address and byte by Peek. -/
theorem ea_bind_memRead {α : Type} (i : Instr) (s : State) (hm : i.operand.mode ≠ .noneAddressing)
    (k : Word → Byte → State → Res α) :
    ((ea i s).bind fun a t => (memRead a t).bind (k a)) =
      (hookReads (operandReads i.operand s.cpu s.bus) s).bind fun _ t =>
        k (peekEa i.operand s.cpu s.bus) (s.bus.peek (peekEa i.operand s.cpu s.bus)) t := by
  rw [ea, resolve_eq_reads _ _ s hm, Res.bind_assoc]
  exact hookReads_bind_memRead (eaReads i.operand s.cpu) _ s _

/-- The operand value of an instruction with an address is its reads in order, then the value by Peek. -/
theorem readOperand_eq_reads (i : Instr) (s : State) (hm : i.operand.mode ≠ .noneAddressing) :
    readOperand i s = (hookReads (operandReads i.operand s.cpu s.bus) s).bind fun _ t =>
      .ok (operandValue i.operand s.cpu s.bus) t := by
  unfold readOperand operandValue
  split
  case h_1 b himm =>
    rw [himm]
    cases h : s.bus.readable s.cpu.pc <;>
      simp [operandByte, operandReads, eaReads, peekEa, hookReads, memRead_eq, h]
  case h_2 =>
    have hmem := ea_bind_memRead i s hm fun _ v t => .ok v t
    simpa only [Res.bind_ok_right] using hmem

/-! ## The loader -/

/-- The format version is zero when both of its bits are (spec/20_memory.md R82). -/
theorem formatVersion_eq_zero (buf : List Byte) :
    formatVersion buf = 0 ↔ ((buf.getD 7 0x00#8).getLsbD 2 || (buf.getD 7 0x00#8).getLsbD 3) = false := by
  have hbits : ∀ b : Byte, b.extractLsb' 2 2 = 0 ↔ (b.getLsbD 2 || b.getLsbD 3) = false := by decide
  exact hbits _

/-- An image sliced out of a file reads as the bytes of the file (R86). -/
theorem read_slice {buf : List Byte} {start size k : Nat} (hk : k < size) :
    (Memory.ofBytes 0 ((buf.drop start).take size)).read k = buf.getD (start + k) 0x00#8 := by
  have hread := Memory.read_ofBytes 0 ((buf.drop start).take size) k
  rw [Nat.zero_add] at hread
  rw [hread, List.getD_eq_getElem?_getD, List.getD_eq_getElem?_getD, List.getElem?_take_of_lt hk, List.getElem?_drop]
  rfl

/-- An image sliced out of a file is in canonical form (log entry 2). -/
theorem wf_slice (buf : List Byte) (start size : Nat) :
    (Memory.ofBytes 0 ((buf.drop start).take size)).wf size = true :=
  Memory.wf_ofBytes _ _ _ (by rw [Nat.zero_add]; exact List.length_take_le _ _)

/-! ## The statements -/

/-- Settles O5: region by region. -/
theorem busRead : Obligations.BusRead := by
  intro a s
  refine ⟨fun h => ?_, fun h h' => ?_, fun h h' => ?_, fun h hi => ?_, fun h hi => ?_⟩
  · simp only [memRead, region_of_le_1FFF h, ramIndex]
  · simp only [memRead, region_of_ppuStub h h', State.warn]
  · simp only [memRead, region_of_unmapped h h', State.warn]
  · rw [memRead_of_prgRom h, if_pos hi]
  · rw [memRead_of_prgRom h, if_neg (by omega)]

/-- Settles O6: region by region; in the PRG window the write raises, which ends the instruction in Faulted. -/
theorem busWrite : Obligations.BusWrite := by
  intro a v s
  refine ⟨fun h => ?_, fun h h' => ?_, fun h h' => ?_, fun h => ?_⟩
  · simp only [memWrite, region_of_le_1FFF h, State.setRam, ramIndex]
  · simp only [memWrite, region_of_ppuStub h h', State.warn]
  · simp only [memWrite, region_of_unmapped h h', State.warn]
  · have hraise := memWrite_bad v s ((writable_eq_false a).2 h)
    refine ⟨hraise, fun i s0 k => ⟨_, by rw [hraise, bind_raise, finish_raise], ?_, fun hook n => ?_⟩⟩
    · exact ⟨rfl, rfl, rfl, rfl⟩
    · exact runLoop_of_faulted hook n rfl

/-- Settles O7: a read after a write sees it through every mirror, and the pages are mirrored by `peek_mirror`. -/
theorem ramIsMirrored : Obligations.RamIsMirrored := by
  refine ⟨fun a a' v s hw ha ha' => ?_, fun z k b hk => ⟨?_, ?_⟩⟩
  · have hwrite : writable a = true := by rw [writable, region_of_le_1FFF ha]; rfl
    refine ⟨_, memWrite_ok v s hwrite, ?_⟩
    rw [peek_wrote hw]
    exact if_congr (sameRamByte_iff ha ha') rfl rfl
  · exact peek_mirror b (by rw [toNat_zext16]; omega) hk
  · exact peek_mirror b (by rw [toNat_stackPage_add]; omega) hk

/-- Settles O8: with a bank the index is inside the image, with none it is past it. -/
theorem prgWindowMapsTheImage : Obligations.PrgWindowMapsTheImage := by
  intro a s h
  refine ⟨fun hb => ?_, fun hb => ?_, fun hb => ?_⟩
  · have hlt : prgIndex s.bus.cart a < s.bus.cart.prgLength := prgIndex_lt_of_bank (by omega) (region_of_8000_le h)
    rw [memRead_of_prgRom h, if_pos hlt, prgIndex_of_one_bank hb h]
  · have hlt : prgIndex s.bus.cart a < s.bus.cart.prgLength := prgIndex_lt_of_bank (by omega) (region_of_8000_le h)
    rw [memRead_of_prgRom h, if_pos hlt, prgIndex_of_banks (by omega)]
  · have hlen : s.bus.cart.prgLength = 0 := by rw [Cart.prgLength, hb, Nat.zero_mul]
    rw [memRead_of_prgRom h, if_neg (by omega), prgIndex_of_banks (by omega)]

/-- Settles O9: the second write acts on the state of the first, whose RAM is still canonical. -/
theorem wordAccessIsTwoByteAccesses : Obligations.WordAccessIsTwoByteAccesses := by
  intro a v s
  refine ⟨memRead16_ok, fun hw h h' => ⟨_, memWrite16_ok v s h h', by simp only [wrote_diag], fun a' => ?_⟩⟩
  rw [peek_wrote (wrote_ram_wf hw _ _), peek_wrote hw]

/-- Settles O29: by the two shapes of an instruction that writes; each raises at its write. -/
theorem writesToRomFault : Obligations.WritesToRomFault := by
  intro i s hrom
  have hw := (writable_eq_false _).2 hrom
  refine ⟨fun h hr => ?_, fun h hacc hr => ?_⟩
  · exact ⟨_, (exec_of_store h s).trans (storing_rom i _ s (mode_of_store h) hr hw), rfl, rfl, rfl, rfl, rfl⟩
  · obtain ⟨f, after, hexec, hbyte⟩ := exec_of_modify h hacc s
    refine ⟨_, hexec.trans (modifying_rom i f after s (mode_of_modify h hacc) hr hw), rfl, ?_⟩
    rw [hbyte]
    exact ⟨rfl, rfl, rfl, rfl⟩

/-- Settles O45: each of the three shapes is its reads in order, then the rest. -/
theorem unreadableOperandFaults : Obligations.UnreadableOperandFaults := by
  intro i s l l' a hm hu hreads hl ha
  refine ⟨(s.logReads l).enterFaulted _ (.opcodeAt s.opcodeAddr), ?_, rfl, ⟨rfl, rfl, rfl, rfl⟩⟩
  by_cases hs : i.mnem ∈ storeMnems
  · rw [if_pos hs] at hreads
    rw [exec_of_store hs, storing, ea, resolve_eq_reads _ _ s hm, Res.bind_assoc, hreads, finish_hookReads_bad hl ha]
  rw [if_neg hs] at hreads
  by_cases hf : i.mnem ∈ modifyMnems
  · obtain ⟨f, after, hexec, -⟩ := exec_of_modify hf (fun h => hm (by rw [h]; rfl)) s
    rw [hexec, modifying, ea_bind_memRead i s hm, hreads, finish_hookReads_bad hl ha]
  · obtain ⟨f, hexec⟩ := exec_of_read hm hu hs hf s
    rw [hexec, withOperand, readOperand_eq_reads i s hm, Res.bind_assoc, hreads, finish_hookReads_bad hl ha]

/-- Settles O59: the loader's own checks in its order, and its two slices. -/
theorem loaderChecksThenSlices : Obligations.LoaderChecksThenSlices := by
  intro buf start prgSize chrSize version
  have hversion : formatVersion buf = 0 ↔ version = false := formatVersion_eq_zero buf
  have hmagic : magicTag = [0x4E#8, 0x45#8, 0x53#8, 0x1A#8] := rfl
  have hend : imagesEnd buf = start + prgSize + chrSize := rfl
  rw [loadCartridge, hend, hmagic]
  refine ⟨fun h => if_pos h, fun h hm => ?_, fun h hm hv => ?_, fun h hm hv hlen => ?_, fun h hm hv hlen => ?_⟩
  · rw [if_neg (by omega), if_pos hm]
  · have hne : formatVersion buf ≠ 0 := fun h0 => Bool.false_ne_true ((hversion.1 h0).symm.trans hv)
    rw [if_neg (by omega), if_neg (not_not.2 hm), if_pos hne]
  · rw [if_neg (by omega), if_neg (not_not.2 hm), if_neg (not_not.2 (hversion.2 hv)), if_pos hlen]
  · rw [if_neg (by omega), if_neg (not_not.2 hm), if_neg (not_not.2 (hversion.2 hv)), if_neg (by omega)]
    exact ⟨_, rfl, rfl, rfl, fun k hk => read_slice hk, fun k hk => read_slice hk, wf_slice _ _ _, wf_slice _ _ _,
      rfl, rfl, rfl⟩

end Sys2Proof.Machine
end

section
/-! Proofs for spec/30_encoding.md: the round trips of decoder and encoder, what the decoder rejects, the words written
out by hand, and the Unimplemented opcodes. The decoder is taken by the number of operand bytes that its opcode's row
asks for: the encodings are exactly the lists with that many, and they decode to what they encode. -/

namespace Sys2Proof

/-! ## The decoder, by the length of the opcode's row -/

theorem rowOf_length_bounds (op : Byte) : 1 ≤ (rowOf op).length ∧ (rowOf op).length ≤ 3 := by
  obtain ⟨-, -, -, hmem⟩ := decodedFrom op 0x00#8 0x00#8
  simp only [List.mem_cons, List.not_mem_nil, or_false] at hmem
  omega

/-- The operand bytes that a row of length 1, 2 or 3 asks for. -/
theorem operandBytes_cases {op : Byte} {bytes : List Byte} (h : (rowOf op).length = 1 + bytes.length) :
    bytes = [] ∨ (∃ b, bytes = [b]) ∨ ∃ b c, bytes = [b, c] := by
  have hle := (rowOf_length_bounds op).2
  match bytes with
  | [] => exact .inl rfl
  | [b] => exact .inr (.inl ⟨b, rfl⟩)
  | [b, c] => exact .inr (.inr ⟨b, c, rfl⟩)
  | _ :: _ :: _ :: _ => simp only [List.length_cons] at h; omega

/-- With the operand bytes its row asks for, an opcode decodes, and the bytes after them are left over. -/
theorem decode_cons_append {op : Byte} {bytes : List Byte} (h : (rowOf op).length = 1 + bytes.length)
    (rest : List Byte) :
    decode (op :: (bytes ++ rest)) = .ok (decodeBytes op (bytes.getD 0 0x00#8) (bytes.getD 1 0x00#8), rest) := by
  obtain rfl | ⟨b, rfl⟩ | ⟨b, c, rfl⟩ := operandBytes_cases h <;> simp [decode, h]

/-- With fewer bytes after it than its row asks for, an opcode does not decode (spec/30_encoding.md R100, R104). -/
theorem decode_cons_short {op : Byte} {rest : List Byte} (h : rest.length + 1 < (rowOf op).length) :
    decode (op :: rest) = .error (.missingOperand op) := by
  unfold decode
  dsimp only
  split
  case h_1 => omega
  case h_2 | h_3 => simp only [List.length_cons] at h; omega
  case h_4 => rfl

/-! ## The round trips -/

theorem decode_encode (i : Instr) (rest : List Byte) : decode (encode i ++ rest) = .ok (i, rest) := by
  obtain ⟨-, hlen, -, hdec⟩ := Laws.TableRow.all i
  rw [encode, List.cons_append, decode_cons_append hlen, hdec]

/-- An opcode with the operand bytes its row asks for is an encoding: the opcode byte alone selects the instruction
(spec/30_encoding.md R100). -/
theorem exists_encode_eq {op : Byte} {bytes : List Byte} (h : (rowOf op).length = 1 + bytes.length) :
    ∃ i, encode i = op :: bytes := by
  refine ⟨decodeBytes op (bytes.getD 0 0x00#8) (bytes.getD 1 0x00#8), ?_⟩
  obtain ⟨hop, -, hbytes, -⟩ := decodedFrom op (bytes.getD 0 0x00#8) (bytes.getD 1 0x00#8)
  rw [encode, hop, hbytes, h]
  obtain rfl | ⟨b, rfl⟩ | ⟨b, c, rfl⟩ := operandBytes_cases h <;> rfl

/-- With enough bytes after it, an opcode decodes to the instruction that it and its operand bytes encode. -/
theorem decode_cons_of_le {op : Byte} {rest : List Byte} (h : (rowOf op).length ≤ rest.length + 1) :
    ∃ i, encode i = op :: rest.take ((rowOf op).length - 1) ∧
      decode (op :: rest) = .ok (i, rest.drop ((rowOf op).length - 1)) := by
  have hpos := (rowOf_length_bounds op).1
  have hlen : (rowOf op).length = 1 + (rest.take ((rowOf op).length - 1)).length := by
    rw [List.length_take]; omega
  obtain ⟨i, hi⟩ := exists_encode_eq hlen
  refine ⟨i, hi, ?_⟩
  have hdec := decode_encode i (rest.drop ((rowOf op).length - 1))
  rwa [hi, List.cons_append, List.take_append_drop] at hdec

/-- Everything the decoder can answer on an opcode and the bytes after it. -/
theorem decode_cons_cases (op : Byte) (rest : List Byte) :
    (rest.length + 1 < (rowOf op).length ∧ decode (op :: rest) = .error (.missingOperand op)) ∨
      ((rowOf op).length ≤ rest.length + 1 ∧ ∃ i, encode i = op :: rest.take ((rowOf op).length - 1) ∧
        decode (op :: rest) = .ok (i, rest.drop ((rowOf op).length - 1))) := by
  rcases Nat.lt_or_ge (rest.length + 1) (rowOf op).length with h | h
  · exact .inl ⟨h, decode_cons_short h⟩
  · exact .inr ⟨h, decode_cons_of_le h⟩

/-! ## The statements on the decoder -/

/-- Settles O1: an instruction carries the operand bytes its row asks for. -/
theorem decodeOfEncode : Obligations.DecodeOfEncode := decode_encode

/-- Settles O2: a list that decodes is an opcode with enough bytes after it, and every instruction agrees with its
row. -/
theorem encodeOfDecode : Obligations.EncodeOfDecode := by
  intro bs rest i h
  refine ⟨?_, (Laws.TableRow.all i).1⟩
  cases bs with
  | nil => cases h
  | cons op tail =>
    obtain ⟨-, herr⟩ | ⟨-, j, henc, hok⟩ := decode_cons_cases op tail
    · cases herr.symm.trans h
    · cases hok.symm.trans h
      rw [henc, List.cons_append, List.take_append_drop]

/-- Settles O3: by the two cases of an opcode, too few bytes and enough. -/
theorem decodeRejectsExactlyShortInput : Obligations.DecodeRejectsExactlyShortInput := by
  refine ⟨fun bs => ⟨fun h => ?_, fun h => h ▸ rfl⟩, fun op op' rest => ⟨fun h => ?_, fun ⟨hop, h⟩ => ?_⟩,
    fun op rest h => ?_⟩
  · cases bs with
    | nil => rfl
    | cons op tail =>
      obtain ⟨-, herr⟩ | ⟨-, i, -, hok⟩ := decode_cons_cases op tail
      · cases herr.symm.trans h
      · cases hok.symm.trans h
  · obtain ⟨hlen, herr⟩ | ⟨-, i, -, hok⟩ := decode_cons_cases op rest
    · cases herr.symm.trans h
      exact ⟨rfl, hlen⟩
    · cases hok.symm.trans h
  · rw [hop, decode_cons_short h]
  · obtain ⟨i, henc, hok⟩ := decode_cons_of_le h
    have hop : i.opcode = op := (List.cons.inj henc).1
    have hlen : (rowOf op).length = i.length := hop ▸ (Laws.TableRow.all i).2.1
    exact ⟨i, hop, hlen.symm, hlen ▸ hok⟩

/-- Settles O4: each word is the encoding of its instruction, which decodes. -/
theorem wordsDecodeAsTheSpecSays : Obligations.WordsDecodeAsTheSpecSays :=
  ⟨decode_encode .brk [], decode_encode (.ldaImm 0x05) [], decode_encode (.ldaZp 0x10) [], decode_encode .tax [],
    decode_encode .inx [], decode_encode (.ldaAbs 0x0235) [], decode_encode (.staIndY 0x20) [],
    decode_encode (.adcImm 0x01) [], decode_encode .aslAcc [], decode_encode (.bpl 0x02) [],
    decode_encode (.jmpAbs 0x0620) [], decode_encode (.jmpInd 0x02FF) [], decode_encode .pha [],
    decode_encode .sed [], decode_encode (.nopAbs0C 0x4000) [], decode_encode (.axsImm 0x01) [],
    decode_encode .jam02 []⟩

end Sys2Proof

namespace Sys2Proof.Machine

/-! ## The Unimplemented opcodes -/

theorem exec_of_unstable {i : Instr} (h : i.mnem ∈ unstableMnems) (s : State) :
    ∃ stores write, exec i s = unstable i stores write s := by
  rw [exec_byMnem]
  simp only [unstableMnems, List.mem_cons, List.not_mem_nil, or_false] at h
  rcases h with h | h | h | h | h | h | h <;> rw [h] <;>
    simp only [byMnem, opXaa, opLxa, opAhx, opTas, opShy, opShx, opLas] <;>
    exact ⟨_, _, rfl⟩

theorem unstable_of_fault (i : Instr) (stores : Bool) (write : Config.UnstableEffect → Cpu → Cpu) {s : State}
    (h : s.policy = .fault) : unstable i stores write s = unimplemented i s := by
  simp only [unstable, h]

/-- An Unimplemented opcode has the one meaning of R107, whether JAM or an unstable opcode under the policy Fault. -/
theorem exec_of_implemented_eq_false {i : Instr} {s : State} (h : i.implemented s.policy = false) :
    exec i s = unimplemented i s := by
  obtain hjam | ⟨hmem, hpolicy⟩ := (implemented_eq_false i s.policy).1 h
  · rw [exec_byMnem, hjam]
    rfl
  · obtain ⟨stores, write, hexec⟩ := exec_of_unstable hmem s
    rw [hexec, unstable_of_fault i stores write hpolicy]

/-- Settles O43: which opcodes are Unimplemented is read off the table's column, and each enters Faulted at once. -/
theorem unimplementedOpcodesFault : Obligations.UnimplementedOpcodesFault := by
  intro i s
  refine ⟨implemented_eq_false i s.policy, fun h => ?_⟩
  rw [exec_of_implemented_eq_false h, unimplemented, finish_raise]
  exact ⟨_, rfl, rfl, rfl, rfl, rfl, rfl⟩

end Sys2Proof.Machine
end

section
/-! Proofs for spec/40_execution.md: the flag and shift primitives, the stack, the resolver, the step with its hook, and
the run loop. First what each operation does in the words of its rule, then the statements. -/

namespace Sys2Proof.Machine

/-! ## Flags -/

/-- Two register files with the same registers and the same flags are the same. -/
theorem cpu_ext {c d : Cpu} (ha : c.a = d.a) (hx : c.x = d.x) (hy : c.y = d.y) (hsp : c.sp = d.sp) (hpc : c.pc = d.pc)
    (hflag : ∀ f, c.flag f = d.flag f) : c = d := by
  have hp : c.p = d.p := status_ext hflag
  cases c
  cases d
  simp_all

theorem znOf_setZN (v : Byte) (c : Cpu) : ZNOf v (c.setZN v) := by
  simp [ZNOf, beq_eq_decide]

theorem znOf_compare (reg m : Byte) (c : Cpu) : ZNOf (reg - m) (c.compare reg m) := znOf_setZN (reg - m) _

theorem znOf_addToA (m : Byte) (c : Cpu) : ZNOf (c.addToA m).a (c.addToA m) := znOf_setZN (c.addToA m).a _

theorem onlyFlags_setFlag {f : Flag} {fs : List Flag} (h : f ∈ fs) (v : Bool) (c : Cpu) :
    OnlyFlags fs c (c.setFlag f v) := by
  intro g hg
  rw [flag_setFlag, if_neg fun hgf : g = f => hg (hgf ▸ h)]

theorem OnlyFlags.trans {fs : List Flag} {c d e : Cpu} (h : OnlyFlags fs c d) (k : OnlyFlags fs d e) :
    OnlyFlags fs c e := fun f hf => (k f hf).trans (h f hf)

theorem onlyFlags_setZN {fs : List Flag} (hz : .z ∈ fs) (hn : .n ∈ fs) (v : Byte) (c : Cpu) :
    OnlyFlags fs c (c.setZN v) :=
  (onlyFlags_setFlag hz _ c).trans (onlyFlags_setFlag hn _ _)

theorem onlyFlags_addToA (m : Byte) (c : Cpu) : OnlyFlags [.c, .v, .z, .n] c (c.addToA m) :=
  (onlyFlags_setFlag (by decide) _ c).trans <| (onlyFlags_setFlag (by decide) _ _).trans
    (onlyFlags_setZN (by decide) (by decide) _ _)

theorem adderSum_eq (a m : Byte) (carry : Bool) :
    adderSum a m carry = a.toNat + m.toNat + (if carry then 1 else 0) := by
  cases carry <;> rfl

/-- The adder's sum has 9 bits (spec/40_execution.md R156). -/
theorem adderSum_le (a m : Byte) (carry : Bool) : adderSum a m carry ≤ 0x1FF := by
  have ha := a.isLt
  have hm := m.isLt
  have hc := carry.toNat_le
  unfold adderSum
  omega

/-- The adder does not read D (R156). -/
theorem addToA_setFlag_d (m : Byte) (v : Bool) (c : Cpu) : (c.setFlag .d v).addToA m = (c.addToA m).setFlag .d v := by
  have ha : ((c.setFlag .d v).addToA m).a = (c.addToA m).a := by simp
  refine cpu_ext ha rfl rfl rfl rfl fun f => ?_
  rw [flag_setFlag, flag_addToA, ha]
  cases f <;> simp

/-! ## Shifts, bit by bit -/

theorem getLsbD_shiftLeft_one (b : Byte) {k : Nat} (hk : k < 8) :
    (b <<< 1).getLsbD k = if k = 0 then false else b.getLsbD (k - 1) := by
  rw [BitVec.getLsbD_shiftLeft]
  by_cases h : k = 0 <;> simp [h, hk]

theorem getLsbD_ushiftRight_one (b : Byte) (k : Nat) :
    (b >>> 1).getLsbD k = if k = 7 then false else b.getLsbD (k + 1) := by
  rw [BitVec.getLsbD_ushiftRight, Nat.add_comm 1 k]
  split
  next h => rw [h, BitVec.getLsbD_of_ge b 8 (le_refl 8)]
  next => rfl

theorem getLsbD_carryByte (v : Bool) (k : Nat) : (carryByte v).getLsbD k = (decide (k = 0) && v) := by
  rcases k with - | k <;> cases v <;> simp [carryByte]

theorem getLsbD_carryByte_high (v : Bool) {k : Nat} (hk : k < 8) :
    (carryByte v <<< 7).getLsbD k = (decide (k = 7) && v) := by
  rw [BitVec.getLsbD_shiftLeft, getLsbD_carryByte]
  by_cases h : k = 7
  · simp [h]
  · have hlt : k < 7 := by omega
    simp [h, hlt]

/-! ## The stack -/

theorem sameSession_wrote (a : Word) (v : Byte) (s : State) : SameSession s (s.wrote a v) :=
  ⟨wrote_cart a v s, wrote_run a v s, wrote_policy a v s, wrote_hooks a v s⟩

/-- An access of the stack page appends no event (spec/40_execution.md R154). -/
theorem writeEvents_stackAddr (sp v : Byte) : writeEvents (stackAddr sp) v = [] := by
  simp only [writeEvents, region_stackAddr]

theorem sub_two_add_one (sp : Byte) : sp - 2#8 + 1#8 = sp - 1#8 := by
  bv_omega

theorem sub_two_add_two (sp : Byte) : sp - 2#8 + 2#8 = sp := BitVec.sub_add_cancel sp 2#8

theorem sub_one_sub_one (sp : Byte) : sp - 1#8 - 1#8 = sp - 2#8 := by
  bv_omega

/-- A push of one byte, whole: it stores, decrements SP and changes nothing else (R150, R154). -/
theorem push_spec {s : State} (hw : s.bus.ram.wf 0x800 = true) (v : Byte) :
    ∃ t, push v s = .ok () t ∧ t.cpu = { s.cpu with sp := s.cpu.sp - 1#8 } ∧ t.diag = s.diag ∧ SameSession s t ∧
      StoredAt (stackAddr s.cpu.sp) v s t := by
  refine ⟨_, push_eq v s, by rw [setSp_cpu, wrote_cpu], ?_, sameSession_wrote _ v s, fun a => peek_wrote hw _ a v⟩
  rw [setSp_diag, wrote_diag, writeEvents_stackAddr, List.append_nil]

/-- Push16, and what a stack byte reads as after it: two bytes, the low one above SP and the high one above it
(R152). -/
theorem push16_spec {s : State} (hw : s.bus.ram.wf 0x800 = true) (v : Word) :
    ∃ t, push16 v s = .ok () t ∧ t.cpu = { s.cpu with sp := s.cpu.sp - 2#8 } ∧
      t.bus.peek (stackAddr (t.cpu.sp + 1#8)) = lowByte v ∧ t.bus.peek (stackAddr (t.cpu.sp + 2#8)) = highByte v := by
  obtain ⟨u, hu, hucpu, -, -, hustored⟩ := push_spec hw (highByte v)
  have hsound := push_sound (highByte v) s
  rw [hu] at hsound
  obtain ⟨hkeeps, -⟩ := hsound
  obtain ⟨t, ht, htcpu, -, -, htstored⟩ := push_spec (hkeeps.ram hw) (lowByte v)
  rw [hucpu] at htcpu htstored
  rw [sub_one_sub_one] at htcpu
  refine ⟨t, by rw [push16, hu, bind_ok, ht], htcpu, ?_, ?_⟩
  · rw [htcpu, sub_two_add_one, htstored, sameRamByte_stackAddr, if_pos (decide_eq_true rfl)]
  · rw [htcpu, sub_two_add_two, htstored, sameRamByte_stackAddr, if_neg (by simp), hustored,
      sameRamByte_stackAddr, if_pos (decide_eq_true rfl)]

/-! ## The resolver -/

/-- A read of zero page appends no event (spec/20_memory.md R63). -/
theorem readEvents_zext16 (z : Byte) : readEvents (zext16 z) = [] := by
  simp only [readEvents, region_zext16]

theorem logReads_singleton (a : Word) (s : State) : s.logReads [a] = { s with diag := s.diag ++ readEvents a } := by
  simp [State.logReads, readEventsAll]

theorem logReads_pair (a a' : Word) (s : State) :
    s.logReads [a, a'] = { s with diag := s.diag ++ (readEvents a ++ readEvents a') } := by
  simp [State.logReads, readEventsAll]

theorem logReads_zeroPage (z z' : Byte) (s : State) : s.logReads [zext16 z, zext16 z'] = s := by
  simp [State.logReads, readEventsAll, readEvents_zext16]

/-- The events of EA's reads are those of its operand bytes: a pointer in zero page adds none. -/
theorem logReads_pc_zeroPage (a : Word) (z z' : Byte) (s : State) :
    s.logReads [a, zext16 z, zext16 z'] = s.logReads [a] := by
  rw [← logReads_zeroPage z z' (s.logReads [a]), logReads_logReads]
  rfl

/-! ## The step -/

/-- Everything the fetch can do (spec/40_execution.md R131, R134). -/
theorem fetch_eq (s : State) :
    fetch s = if s.bus.readable s.cpu.pc = true then
        .ok (decodeAt (s.bus.peek s.cpu.pc) s) ((s.logReads [s.cpu.pc]).setPc (s.cpu.pc + 1#16))
      else .raise (.prgIndexOutOfRange s.cpu.pc (prgIndex s.bus.cart s.cpu.pc)) s := by
  rw [fetch, memRead_eq]
  split <;> rfl

theorem callHook_noop (s : State) : callHook HookCall.noop s = .ok () s := rfl

/-- A step whose hook call raises no fault is the step, with no hook, of the state that call leaves
(spec/60_exceptions.md R420, R422). -/
theorem stepWith_of_callHook {c : HookCall} {s u : State} (hrun : s.run = .running) (hc : callHook c s = .ok () u) :
    stepWith c s = stepWith HookCall.noop u := by
  have hsound := callHook_sound c s
  rw [hc] at hsound
  obtain ⟨-, hrun', -⟩ := hsound
  simp only [stepWith, hrun'.trans hrun, hrun, hc, callHook_noop]

theorem stepWith_of_callHook_raise {c : HookCall} {s u : State} {f : Fault} (hrun : s.run = .running)
    (hc : callHook c s = .raise f u) : stepWith c s = .next (u.enterFaulted f .hook) := by
  simp only [stepWith, hrun, hc]

/-- The step with no hook runs the instruction at a PC that can be read (spec/40_execution.md R131). -/
theorem stepWith_noop_of_readable {s : State} (hrun : s.run = .running) (h : s.bus.readable s.cpu.pc = true) :
    stepWith HookCall.noop s =
      exec (decodeAt (s.bus.peek s.cpu.pc) s) ((s.logReads [s.cpu.pc]).setPc (s.cpu.pc + 1#16)) := by
  simp only [stepWith, hrun, callHook_noop, fetch_eq, if_pos h]

theorem stepWith_noop_of_unreadable {s : State} (hrun : s.run = .running) (h : s.bus.readable s.cpu.pc = false) :
    stepWith HookCall.noop s =
      .next (s.enterFaulted (.prgIndexOutOfRange s.cpu.pc (prgIndex s.bus.cart s.cpu.pc)) (.opcodeAt s.cpu.pc)) := by
  have hbad : ¬ s.bus.readable s.cpu.pc = true := by simp [h]
  simp only [stepWith, hrun, callHook_noop, fetch_eq, if_neg hbad]

theorem stepWith_noop_next {s : State} (hrun : s.run = .running) : ∃ t, stepWith HookCall.noop s = .next t := by
  cases hread : s.bus.readable s.cpu.pc with
  | false => exact ⟨_, stepWith_noop_of_unreadable hrun hread⟩
  | true =>
    obtain ⟨t, hexec, -⟩ := exec_ends (decodeAt (s.bus.peek s.cpu.pc) s)
      ((s.logReads [s.cpu.pc]).setPc (s.cpu.pc + 1#16))
    exact ⟨t, (stepWith_noop_of_readable hrun hread).trans hexec⟩

/-- A step of a Running session answers a next state, whatever its hook call does. -/
theorem stepWith_next (c : HookCall) {s : State} (hrun : s.run = .running) : ∃ t, stepWith c s = .next t := by
  have hsound := callHook_sound c s
  cases hc : callHook c s with
  | raise f u => exact ⟨_, stepWith_of_callHook_raise hrun hc⟩
  | ok _ u =>
    rw [hc] at hsound
    obtain ⟨-, hrun', -⟩ := hsound
    rw [stepWith_of_callHook hrun hc]
    exact stepWith_noop_next (hrun'.trans hrun)

theorem step_eq_stepWith_noop {s : State} (h : s.nextHook = HookCall.noop) :
    step s = stepWith HookCall.noop s.popHook := by
  rw [step, h]

/-! ## BRK -/

theorem exec_brk (s : State) : exec .brk s = .next (s.setRun .halted) := by
  rw [exec_byMnem]
  exact brk_eq s

/-- The byte 0x00 is BRK, whatever follows it (spec/44_control.md R287). -/
theorem decodeAt_zero (s : State) : decodeAt 0x00#8 s = .brk := rfl

theorem eq_zero_of_decodeAt {op : Byte} {s : State} (h : decodeAt op s = .brk) : op = 0x00#8 := by
  obtain ⟨hop, -⟩ := decodedFrom op (s.bus.peek (s.cpu.pc + 1#16)) (s.bus.peek (s.cpu.pc + 2#16))
  rw [← hop]
  exact congrArg Instr.opcode h

/-- BRK alone halts: any other instruction goes on or enters Faulted (R287). -/
theorem eq_brk_of_exec_halted {i : Instr} {s t : State} (hrun : s.run = .running) (h : exec i s = .next t)
    (ht : t.run = .halted) : i = .brk := by
  obtain ⟨t', hnext, hends⟩ := exec_ends i s
  obtain rfl : t' = t := Host.Outcome.next.inj (hnext.symm.trans h)
  rcases hends with ⟨-, ⟨hsame, -⟩ | ⟨f, hfault, -⟩⟩ | ⟨rfl, -⟩ | ⟨-, -, hfault⟩
  · simp [hsame, hrun] at ht
  · simp [hfault] at ht
  · rfl
  · simp [hfault] at ht

/-! ## Code outside RAM and PRG-ROM -/

/-- Between RAM and PRG-ROM, every address is in one of two regions (spec/20_memory.md R61). -/
theorem region_between {a : Word} (h : 0x2000 ≤ a.toNat) (h' : a.toNat ≤ 0x7FFF) :
    region a = .ppuStub ∨ region a = .unmapped := by
  by_cases h3 : a.toNat ≤ 0x3FFF
  · exact .inl (region_of_ppuStub h h3)
  · exact .inr (region_of_unmapped (by omega) h')

/-- Between RAM and PRG-ROM a read raises no fault, gives 0x00 and appends one event (R63). -/
theorem read_between {a : Word} (h : 0x2000 ≤ a.toNat) (h' : a.toNat ≤ 0x7FFF) (b : Bus) :
    b.readable a = true ∧ b.peek a = 0x00#8 ∧ (readEvents a).length = 1 := by
  rcases region_between h h' with hr | hr <;> simp [Bus.readable, Bus.peek, readEvents, hr]

/-! ## The hook -/

theorem hookReads_ok {l : List Word} {s : State} (h : s.bus.readableAll l = true) :
    hookReads l s = .ok () (s.logReads l) := by
  induction l generalizing s with
  | nil => rw [hookReads, logReads_nil]
  | cons a l ih =>
    simp only [Bus.readableAll, List.all_cons, Bool.and_eq_true] at h
    obtain ⟨ha, hl⟩ := h
    rw [hookReads, memRead_ok ha, bind_ok, ih (s := s.logReads [a]) hl, logReads_logReads, List.singleton_append]

/-- The state after a list of Bus writes that raise no fault. -/
def State.wroteAll : List (Word × Byte) → State → State
  | [], s => s
  | (a, v) :: l, s => (s.wrote a v).wroteAll l

@[simp] theorem wroteAll_cpu (l : List (Word × Byte)) (s : State) : (s.wroteAll l).cpu = s.cpu := by
  induction l generalizing s with
  | nil => rfl
  | cons w l ih => rw [State.wroteAll, ih, wrote_cpu]

theorem SameSession.trans {s t u : State} (h : SameSession s t) (k : SameSession t u) : SameSession s u := by
  obtain ⟨hcart, hrun, hpolicy, hhooks⟩ := h
  obtain ⟨kcart, krun, kpolicy, khooks⟩ := k
  exact ⟨kcart.trans hcart, krun.trans hrun, kpolicy.trans hpolicy, khooks.trans hhooks⟩

theorem sameSession_wroteAll (l : List (Word × Byte)) (s : State) : SameSession s (s.wroteAll l) := by
  induction l generalizing s with
  | nil => exact ⟨rfl, rfl, rfl, rfl⟩
  | cons w l ih => exact (sameSession_wrote w.1 w.2 s).trans (ih _)

/-- What a write stores does not depend on the events. -/
theorem wrote_bus_congr {s t : State} (h : s.bus = t.bus) (a : Word) (v : Byte) :
    (s.wrote a v).bus = (t.wrote a v).bus := by
  unfold State.wrote
  split <;> simp [h]

theorem wroteAll_bus_congr (s t : State) (h : s.bus = t.bus) (l : List (Word × Byte)) :
    (s.wroteAll l).bus = (t.wroteAll l).bus := by
  induction l generalizing s t with
  | nil => exact h
  | cons w l ih => exact ih _ _ (wrote_bus_congr h w.1 w.2)

/-- Legal writes of a hook call happen in order, and the writes after them follow (spec/60_exceptions.md R420). -/
theorem hookWrites_append {l : List (Word × Byte)} (h : l.all (fun w => writable w.1) = true) (l' : List (Word × Byte))
    (s : State) : hookWrites (l ++ l') s = hookWrites l' (s.wroteAll l) := by
  induction l generalizing s with
  | nil => rfl
  | cons w l ih =>
    simp only [List.all_cons, Bool.and_eq_true] at h
    obtain ⟨ha, hl⟩ := h
    rw [List.cons_append, hookWrites, memWrite_ok _ _ ha, bind_ok, ih hl]
    rfl

theorem hookWrites_ok {l : List (Word × Byte)} (h : l.all (fun w => writable w.1) = true) (s : State) :
    hookWrites l s = .ok () (s.wroteAll l) := by
  have happend := hookWrites_append h [] s
  rwa [List.append_nil] at happend

/-! ## The run loop -/

theorem runLoop_of_ne_running (hook : Cpu → Bus → HookCall) (n : Nat) {s : State} (h : s.run ≠ .running) :
    runLoop hook n s = some s := by
  cases n with
  | zero => exact if_neg h
  | succ n =>
    unfold runLoop
    split
    next hrun => exact absurd hrun h
    next => rfl

/-- In Running, the loop takes a step and goes on (spec/40_execution.md R130). -/
theorem runLoop_succ_of_running {hook : Cpu → Bus → HookCall} {s u : State} (hrun : s.run = .running)
    (hstep : stepWith (hook s.cpu s.bus) s = .next u) (n : Nat) : runLoop hook (n + 1) s = runLoop hook n u := by
  simp only [runLoop, hrun, hstep]

/-- A loop that ends, ends outside Running, and more fuel gives the same end (spec/70_reset_and_hazards.md R467). -/
theorem runLoop_some {hook : Cpu → Bus → HookCall} {n : Nat} {s t : State} (h : runLoop hook n s = some t) :
    t.run ≠ .running ∧ ∀ m, n ≤ m → runLoop hook m s = some t := by
  have hstopped : ∀ {k : Nat} {u : State}, runLoop hook k u = some t → u.run ≠ .running →
      t.run ≠ .running ∧ ∀ m, k ≤ m → runLoop hook m u = some t := fun {k u} hu hrun => by
    rw [runLoop_of_ne_running hook k hrun] at hu
    cases hu
    exact ⟨hrun, fun m _ => runLoop_of_ne_running hook m hrun⟩
  induction n generalizing s with
  | zero =>
    refine hstopped h fun hrun => ?_
    rw [runLoop, if_pos hrun] at h
    cases h
  | succ n ih =>
    by_cases hrun : s.run = .running
    · obtain ⟨u, hstep⟩ := stepWith_next (hook s.cpu s.bus) hrun
      rw [runLoop_succ_of_running hrun hstep] at h
      obtain ⟨hend, hmore⟩ := ih h
      refine ⟨hend, fun m hm => ?_⟩
      obtain ⟨k, rfl⟩ : ∃ k, m = k + 1 := ⟨m - 1, by omega⟩
      rw [runLoop_succ_of_running hrun hstep]
      exact hmore k (by omega)
    · exact hstopped h hrun

/-! ## The statements -/

/-- Settles O11: SetZN flag by flag, and it writes P alone. -/
theorem setZNRule : Obligations.SetZNRule := by
  intro v c
  obtain ⟨hz, hn⟩ := znOf_setZN v c
  exact ⟨hz, hn, onlyFlags_setZN (by decide) (by decide) v c, rfl⟩

/-- Settles O13: Compare writes C, then SetZN writes Z and N, both in P alone. -/
theorem compareRule : Obligations.CompareRule := by
  intro reg m c
  refine ⟨by simp [BitVec.le_def], znOf_compare reg m c, ?_, rfl⟩
  exact (onlyFlags_setFlag (by decide) _ c).trans (onlyFlags_setZN (by decide) (by decide) _ _)

/-- Settles O12: the model's sum is the statement's, and D is not among what the adder reads. -/
theorem addToARule : Obligations.AddToARule := by
  intro m c sum r d
  have hsum : adderSum c.a m (c.flag .c) = sum := adderSum_eq c.a m (c.flag .c)
  have hr : d.a = r := by rw [addToA_a, hsum]
  refine ⟨hsum ▸ adderSum_le c.a m _, hr, ?_, ?_, hr ▸ znOf_addToA m c, onlyFlags_addToA m c, rfl, rfl, rfl, rfl,
    fun v => addToA_setFlag_d m v c⟩
  · rw [flag_addToA, hsum]
    rfl
  · rw [flag_addToA, hr]
    simp [adderOverflow, bne, beq_eq_decide]

/-- Settles O14: the carry out is written by definition, and each bit is the shifted operand's or the rotated-in C. -/
theorem shiftRules : Obligations.ShiftRules := by
  intro b c
  refine ⟨rfl, rfl, rfl, rfl, fun k hk => ⟨getLsbD_shiftLeft_one b hk, getLsbD_ushiftRight_one b k, ?_, ?_⟩⟩
  · rw [rotL, BitVec.getLsbD_or, getLsbD_shiftLeft_one b hk, getLsbD_carryByte]
    by_cases h : k = 0 <;> simp [h]
  · rw [rotR, BitVec.getLsbD_or, getLsbD_ushiftRight_one b k, getLsbD_carryByte_high _ hk]
    by_cases h : k = 7 <;> simp [h]

/-- Settles O10: a push stores in RAM, and Pop16 reads the two bytes Push16 stored. -/
theorem stackPrimitives : Obligations.StackPrimitives := by
  intro s hw
  refine ⟨push_spec hw, pop_eq s, fun v => ?_⟩
  obtain ⟨t, hpush, hcpu, hlow, hhigh⟩ := push16_spec hw v
  refine ⟨t, hpush, by rw [hcpu], hlow, hhigh, ?_⟩
  rw [pop16_eq, hlow, hhigh, wordOf_high_low, State.setSp, hcpu, sub_two_add_two]

/-- Settles O16: zero page is RAM, which can be read and appends no event. -/
theorem zpRead16StaysInPageZero : Obligations.ZpRead16StaysInPageZero := by
  intro p s
  refine ⟨?_, ?_, ?_⟩
  · rw [zpRead16_ok, logReads_zeroPage, Bus.peekZp16]
  · rw [toNat_zext16]
    exact p.isLt
  · rw [toNat_zext16]
    exact (p + 1#8).isLt

/-- Settles O17: EA by Peek, whose reads append the events of the operand bytes. -/
theorem effectiveAddresses : Obligations.EffectiveAddresses := by
  intro op b w s
  refine ⟨rfl, fun h => ?_, fun h => ?_⟩
  · have hbyte : s.bus.readableAll [s.cpu.pc] = true := by simp [Bus.readableAll, h]
    have hpointer : ∀ z, s.bus.readableAll [s.cpu.pc, zext16 z, zext16 (z + 1#8)] = true := fun z => by
      simp [Bus.readableAll, h, readable_zext16]
    rw [← logReads_singleton]
    refine ⟨resolve_ok op (.zp b) s nofun hbyte, resolve_ok op (.zpX b) s nofun hbyte,
      resolve_ok op (.zpY b) s nofun hbyte, ?_, ?_⟩
    · exact (resolve_ok op (.indX b) s nofun (hpointer _)).trans (congrArg _ (logReads_pc_zeroPage _ _ _ s))
    · exact (resolve_ok op (.indY b) s nofun (hpointer _)).trans (congrArg _ (logReads_pc_zeroPage _ _ _ s))
  · rw [← logReads_pair]
    exact ⟨resolve_ok op (.abs w) s nofun h, resolve_ok op (.absX w) s nofun h, resolve_ok op (.absY w) s nofun h⟩

/-- Settles O47: three bytes always decode, and to the instruction the fetch makes of them. -/
theorem stepRunsDecodedInstruction : Obligations.StepRunsDecodedInstruction := by
  intro s i rest hrun hnoop hread hdec
  rw [decode_three] at hdec
  cases hdec
  rw [step_eq_stepWith_noop hnoop, stepWith_noop_of_readable (s := s.popHook) hrun hread,
    logReads_singleton]
  rfl

/-- Settles O48: `stepWith_next` in Running; the other two states take no step. -/
theorem stepByRunState : Obligations.StepByRunState := by
  intro s
  refine ⟨fun hrun => stepWith_next s.nextHook hrun, fun hrun => ?_, fun f site hrun => ?_⟩
  · simp only [step, stepWith, popHook_run, hrun]
  · simp only [step, stepWith, popHook_run, hrun]

/-- Settles O49: outside RAM and PRG-ROM the fetch reads 0x00, which is BRK; past the image it raises. -/
theorem fetchOutsideCode : Obligations.FetchOutsideCode := by
  intro s hrun hnoop
  rw [step_eq_stepWith_noop hnoop]
  refine ⟨fun h h' => ?_, fun h => ⟨_, stepWith_noop_of_unreadable (s := s.popHook) hrun h, rfl, rfl, rfl, rfl⟩⟩
  obtain ⟨hread, hzero, hevent⟩ := read_between h h' s.bus
  rw [stepWith_noop_of_readable (s := s.popHook) hrun hread, popHook_bus, popHook_cpu, hzero, decodeAt_zero, exec_brk,
    logReads_singleton]
  exact ⟨rfl, hevent⟩

/-- Settles O50: the hook's reads append events only, so its writes act as they would without them. -/
theorem hookComesFirst : Obligations.HookComesFirst := by
  intro c s hrun hreads
  have hcall : callHook c s = hookWrites c.writes (s.logReads c.reads) := by rw [callHook, hookReads_ok hreads, bind_ok]
  refine ⟨fun l l' a v hwrites hl ha => ?_, fun hwrites => ?_⟩
  · have hraise : callHook c s = .raise (.illegalWrite a v) ((s.logReads c.reads).wroteAll l) := by
      rw [hcall, hwrites, hookWrites_append hl, hookWrites, memWrite_bad v _ ha, bind_raise]
    refine ⟨_, _, hookWrites_ok hl s, stepWith_of_callHook_raise hrun hraise, rfl,
      wroteAll_bus_congr (s.logReads c.reads) s rfl l, ?_⟩
    obtain ⟨-, -, hpolicy, hhooks⟩ := sameSession_wroteAll l s
    obtain ⟨-, -, hpolicy', hhooks'⟩ := sameSession_wroteAll l (s.logReads c.reads)
    exact ⟨hpolicy'.trans hpolicy.symm, hhooks'.trans hhooks.symm⟩
  · have hok := hcall.trans (hookWrites_ok hwrites _)
    exact ⟨_, hok, wroteAll_cpu _ _, sameSession_wroteAll _ (s.logReads c.reads), stepWith_of_callHook hrun hok⟩

/-- Settles O51: only BRK halts, its byte is 0x00, and it changes nothing but the run state. -/
theorem onlyBreakHalts : Obligations.OnlyBreakHalts := by
  intro s t hnoop hstep ht
  rw [step_eq_stepWith_noop hnoop] at hstep
  obtain ⟨hrun, -⟩ := stepWith_cases hstep
  cases hread : s.popHook.bus.readable s.popHook.cpu.pc with
  | false =>
    rw [stepWith_noop_of_unreadable hrun hread] at hstep
    cases hstep
    cases ht
  | true =>
    rw [stepWith_noop_of_readable hrun hread] at hstep
    have hbrk := eq_brk_of_exec_halted (s := (s.popHook.logReads [_]).setPc _) hrun hstep ht
    rw [hbrk, exec_brk] at hstep
    cases hstep
    exact ⟨eq_zero_of_decodeAt hbrk, rfl, rfl⟩

/-- Settles O58: `runLoop_some`, and what a host operation does in each run state. -/
theorem runEndsHaltedOrFaulted : Obligations.RunEndsHaltedOrFaulted := by
  intro hook n s
  exact ⟨fun t => runLoop_some, fun hlive => unlessFaulted_of_live hlive _,
    fun f site h => unlessFaulted_of_faulted h _⟩

end Sys2Proof.Machine
end

section
/-! Proofs for spec/41_load_store_transfer.md: loads, stores and register transfers. First what each family of
mnemonics does to the register file, with `exec` as the shape that applies it, then the statements. The stores'
shape is `exec_of_store`. -/

namespace Sys2Proof.Machine

/-! ## Loads -/

/-- The mnemonics that load their operand. -/
def loadMnems : List Mnem := [.lda, .ldx, .ldy, .lax]

/-- What a load does to the register file with its operand value (spec/41_load_store_transfer.md R170 to R172;
spec/46_unofficial.md R336). -/
def loadEffect (m : Mnem) (v : Byte) (c : Cpu) : Cpu :=
  Cpu.setZN v
    { c with
      a := if m = .lda ∨ m = .lax then v else c.a
      x := if m = .ldx ∨ m = .lax then v else c.x
      y := if m = .ldy then v else c.y }

theorem exec_of_load {i : Instr} (h : i.mnem ∈ loadMnems) (s : State) :
    exec i s = withOperand i (loadEffect i.mnem) s := by
  rw [exec_byMnem]
  simp only [loadMnems, List.mem_cons, List.not_mem_nil, or_false] at h
  rcases h with h | h | h | h <;> rw [h] <;> rfl

/-- Every form of a load has an address. -/
theorem mode_of_load {i : Instr} (h : i.mnem ∈ loadMnems) : i.operand.mode ≠ .noneAddressing :=
  have hload : ∀ m ∈ loadMnems, m ∉ noAddressMnems := by decide
  mode_ne_none (hload _ h)

/-! ## Transfers -/

/-- The mnemonics that copy a register to another. -/
def transferMnems : List Mnem := [.tax, .tay, .txa, .tya, .tsx, .txs]

/-- The byte a transfer copies (spec/41_load_store_transfer.md R176 to R181). -/
def transferredByte (m : Mnem) (c : Cpu) : Byte :=
  if m = .tax ∨ m = .tay then c.a else if m = .txa ∨ m = .txs then c.x else if m = .tya then c.y else c.sp

/-- What a transfer does to the register file: TXS alone writes no flag (R176 to R181). -/
def transferEffect (m : Mnem) (c : Cpu) : Cpu :=
  let v := transferredByte m c
  { a := if m = .txa ∨ m = .tya then v else c.a
    x := if m = .tax ∨ m = .tsx then v else c.x
    y := if m = .tay then v else c.y
    sp := if m = .txs then v else c.sp
    p := if m = .txs then c.p else (c.setZN v).p
    pc := c.pc }

theorem flag_transferEffect {m : Mnem} (h : m ≠ .txs) (c : Cpu) (f : Flag) :
    (transferEffect m c).flag f = (c.setZN (transferredByte m c)).flag f :=
  flag_eq_of_p (if_neg h) f

theorem exec_of_transfer {i : Instr} (h : i.mnem ∈ transferMnems) (s : State) :
    exec i s = implied i (transferEffect i.mnem) s := by
  rw [exec_byMnem]
  simp only [transferMnems, List.mem_cons, List.not_mem_nil, or_false] at h
  rcases h with h | h | h | h | h | h <;> rw [h] <;> rfl

/-! ## The statements -/

/-- Settles O18: the operand's reads append events only, and `loadEffect` ends in SetZN. -/
theorem loads : Obligations.Loads := by
  intro i s hr h v
  refine ⟨_, (exec_of_load h s).trans (withOperand_next i _ s (mode_of_load h) hr), rfl, rfl, rfl, rfl,
    znOf_setZN v _, ?_, rfl, rfl, sameRest_of_bus rfl rfl rfl rfl⟩
  exact onlyFlags_setZN (by decide) (by decide) v { s.cpu with a := _, x := _, y := _ }

/-- Settles O19: one Bus write after EA's reads, which change nothing but events. -/
theorem stores : Obligations.Stores := by
  intro i s hwf h hr hw v
  refine ⟨_, (exec_of_store h s).trans (storing_next i _ s (mode_of_store h) hr hw), fun a => ?_, ?_, ?_, ?_⟩
  · exact peek_wrote (s := s.logReads _) hwf _ a v
  · rw [setPc_cpu, wrote_cpu, logReads_cpu]
  · exact wrote_diag _ v (s.logReads _)
  · exact sameSession_wrote _ v (s.logReads _)

/-- Settles O20: `transferEffect` writes one register, and the flags only as SetZN does. -/
theorem transfers : Obligations.Transfers := by
  intro i s h v
  refine ⟨_, (exec_of_transfer h s).trans (implied_next i _ s), rfl, rfl, rfl, rfl, fun hne => ?_,
    fun htxs => if_pos htxs, rfl, rfl, sameRest_of_bus rfl rfl rfl rfl⟩
  have hflag := flag_transferEffect hne s.cpu
  obtain ⟨hz, hn⟩ := znOf_setZN v s.cpu
  exact ⟨⟨(hflag .z).trans hz, (hflag .n).trans hn⟩,
    fun f hf => (hflag f).trans (onlyFlags_setZN (by decide) (by decide) v s.cpu f hf)⟩

end Sys2Proof.Machine
end

section
/-! Proofs for spec/42_arith_logic.md: the adder as signed and unsigned arithmetic, then the two shapes of
an instruction with an operand, whole, then what each family of mnemonics does to the register file, with `exec` as the
shape that applies it, then the statements. The flags of the adder and of a comparison are those of `addToARule` and
`compareRule`. -/

namespace Sys2Proof.Machine

/-! ## The adder as arithmetic -/

/-- A carry as a number. -/
theorem natCast_toNat (carry : Bool) : (carry.toNat : Int) = if carry then 1 else 0 := by
  cases carry <;> rfl

/-- Bit 7 of a byte, by its number. -/
theorem getLsbD_seven (b : Byte) : b.getLsbD 7 = decide (0x80 ≤ b.toNat) := BitVec.msb_eq_decide b

/-- A byte as a signed number (spec/00_scope.md R8). -/
theorem toInt_byte (b : Byte) : b.toInt = if b.toNat < 0x80 then (b.toNat : Int) else b.toNat - 0x100 := by
  rw [BitVec.toInt_eq_toNat_cond]
  split_ifs <;> omega

/-- Masking with 0x80 keeps bit 7 alone. -/
theorem and_0x80_ne_zero (b : Byte) : (b &&& 0x80#8 != 0x00#8) = b.getLsbD 7 := by
  revert b
  decide

/-- The adder's overflow, by sign bits: those of A and m agree, and that of the result differs (spec/40_execution.md
R156). -/
theorem adderOverflow_eq_signs (a m r : Byte) :
    adderOverflow a m r = decide (a.getLsbD 7 = m.getLsbD 7 ∧ r.getLsbD 7 ≠ a.getLsbD 7) := by
  rw [adderOverflow, and_0x80_ne_zero, BitVec.getLsbD_and, BitVec.getLsbD_xor, BitVec.getLsbD_xor]
  generalize a.getLsbD 7 = x, m.getLsbD 7 = y, r.getLsbD 7 = z
  revert x y z
  decide

/-- The sign bits tell an overflow exactly when the signed sum does not fit a byte. -/
theorem signs_iff_signed_overflow (a m : Byte) (carry : Bool) :
    (a.getLsbD 7 = m.getLsbD 7 ∧ (BitVec.ofNat 8 (adderSum a m carry)).getLsbD 7 ≠ a.getLsbD 7) ↔
      a.toInt + m.toInt + carry.toNat < -128 ∨ 127 < a.toInt + m.toInt + carry.toNat := by
  have ha := a.isLt
  have hm := m.isLt
  have hc := carry.toNat_le
  simp only [toInt_byte, getLsbD_seven, BitVec.toNat_ofNat, adderSum, ne_eq, decide_eq_decide]
  split_ifs <;> omega

/-- On the complement, the 9-bit sum is the difference with borrow, 256 up (spec/42_arith_logic.md R201). -/
theorem adderSum_not (a m : Byte) (carry : Bool) :
    (adderSum a (~~~m) carry : Int) = (a.toNat - m.toNat - (1 - carry.toNat) : Int) + 0x100 := by
  have hm := m.isLt
  rw [adderSum, BitVec.toNat_not]
  omega

/-- Adding 256 does not change a byte. -/
theorem ofInt_add_256 (n : Int) : BitVec.ofInt 8 (n + 0x100) = BitVec.ofInt 8 n := by
  rw [BitVec.ofInt_add]
  exact BitVec.add_zero _

/-! ## The shapes, whole -/

/-- `exec` of an instruction whose mnemonic is in a list, when `f` says what each of them means. -/
theorem exec_of_mem {l : List Mnem} {f : Mnem → Instr → State → Out} (hf : ∀ m ∈ l, byMnem m = f m) {i : Instr}
    (h : i.mnem ∈ l) (s : State) : exec i s = f i.mnem i s := by
  rw [exec_byMnem, hf _ h]

/-- Every form of an instruction has an address where its mnemonic is from a list without any of `noAddressMnems`. -/
theorem mode_of_mem {l : List Mnem} (hl : ∀ m ∈ l, m ∉ noAddressMnems) {i : Instr} (h : i.mnem ∈ l) :
    i.operand.mode ≠ .noneAddressing :=
  mode_ne_none (hl _ h)

/-- An instruction that reads its operand, whole: its effect on the register file, the events of its reads, and PC. -/
theorem withOperand_spec {i : Instr} {f : Byte → Cpu → Cpu} {s : State} {d : Cpu}
    (hf : f (operandValue i.operand s.cpu s.bus) s.cpu = d) (hpc : d.pc = s.cpu.pc)
    (hm : i.operand.mode ≠ .noneAddressing)
    (hr : s.bus.readableAll (operandReads i.operand s.cpu s.bus) = true) :
    ∃ t, withOperand i f s = .next t ∧ t.cpu = { d with pc := nextPc i s.cpu } ∧
      t.diag = s.diag ++ readEventsAll (operandReads i.operand s.cpu s.bus) ∧ SameRest s t := by
  have hnext := withOperand_next i f s hm hr
  rw [hf, nextPc_congr i hpc] at hnext
  refine ⟨_, hnext, ?_, rfl, sameRest_of_bus rfl rfl rfl rfl⟩
  rw [setPc_cpu, mapCpu_cpu, logReads_cpu, hf]

/-- A read-modify-write instruction, whole: it stores the modified byte where it read, and the rest of its effect is on
the register file (spec/40_execution.md R140). -/
theorem modifying_spec {i : Instr} {f : Byte → Cpu → Byte × Cpu} {s : State} {r : Byte} {c : Cpu}
    (hf : f (s.bus.peek (peekEa i.operand s.cpu s.bus)) s.cpu = (r, c)) (after : Byte → Cpu → Cpu)
    (hwf : s.bus.ram.wf 0x800 = true) (hm : i.operand.mode ≠ .noneAddressing)
    (hr : s.bus.readableAll (operandReads i.operand s.cpu s.bus) = true)
    (hw : writable (peekEa i.operand s.cpu s.bus) = true) :
    ∃ t, modifying i f after s = .next t ∧ StoredAt (peekEa i.operand s.cpu s.bus) r s t ∧
      t.cpu = { after r c with pc := nextPc i (after r c) } ∧
      t.diag = s.diag ++ readEventsAll (operandReads i.operand s.cpu s.bus) ++
        writeEvents (peekEa i.operand s.cpu s.bus) r ∧
      SameSession s t := by
  have hnext := modifying_next i f after s hm hr hw
  rw [hf] at hnext
  refine ⟨_, hnext, fun a => ?_, ?_, ?_, ?_⟩
  · exact peek_wrote (s := (s.logReads _).setCpu c) hwf _ a r
  · rw [setPc_cpu, mapCpu_cpu, wrote_cpu, setCpu_cpu]
  · exact wrote_diag _ r ((s.logReads _).setCpu c)
  · exact sameSession_wrote _ r ((s.logReads _).setCpu c)

/-- A register file that differs from `c` in P alone still does when PC is written in both. -/
theorem regs_setPc {c d : Cpu} (h : { d with p := c.p } = c) (pc : Word) :
    { d with p := c.p, pc := pc } = { c with pc := pc } :=
  congrArg (fun e : Cpu => { e with pc := pc }) h

/-! ## Instructions that read their operand -/

/-- What ADC and SBC do to the register file with their operand value (R200, R201; spec/46_unofficial.md R338). -/
def addEffect (m : Mnem) (v : Byte) (c : Cpu) : Cpu := c.addToA (if m = .adc then v else ~~~v)

theorem exec_of_add {i : Instr} (h : i.mnem ∈ [.adc, .sbc]) (s : State) :
    exec i s = withOperand i (addEffect i.mnem) s :=
  exec_of_mem (f := fun m i => withOperand i (addEffect m)) (by intro m hm; fin_cases hm <;> rfl) h s

/-- What AND, ORA and EOR do to the register file with their operand value (R202 to R204). -/
def logicEffect (m : Mnem) (v : Byte) (c : Cpu) : Cpu :=
  c.loadA (if m = .and then c.a &&& v else if m = .ora then c.a ||| v else c.a ^^^ v)

theorem exec_of_logic {i : Instr} (h : i.mnem ∈ [.and, .ora, .eor]) (s : State) :
    exec i s = withOperand i (logicEffect i.mnem) s :=
  exec_of_mem (f := fun m i => withOperand i (logicEffect m)) (by intro m hm; fin_cases hm <;> rfl) h s

/-- What a comparison does to the register file with its operand value (R206 to R208). -/
def compareEffect (m : Mnem) (v : Byte) (c : Cpu) : Cpu :=
  c.compare (if m = .cmp then c.a else if m = .cpx then c.x else c.y) v

theorem exec_of_compare {i : Instr} (h : i.mnem ∈ [.cmp, .cpx, .cpy]) (s : State) :
    exec i s = withOperand i (compareEffect i.mnem) s :=
  exec_of_mem (f := fun m i => withOperand i (compareEffect m)) (by intro m hm; fin_cases hm <;> rfl) h s

theorem exec_of_bit {i : Instr} (h : i.mnem = .bit) (s : State) : exec i s = withOperand i bitEffect s := by
  rw [exec_byMnem, h]
  rfl

/-- BIT, flag by flag (R205). -/
theorem flag_bitEffect (m : Byte) (c : Cpu) (g : Flag) :
    (bitEffect m c).flag g =
      if g = .n then m.getLsbD 7
      else if g = .v then m.getLsbD 6
      else if g = .z then (c.a &&& m) == 0x00#8
      else c.flag g := by
  simp only [bitEffect, flag_setFlag]

theorem onlyFlags_bitEffect (m : Byte) (c : Cpu) : OnlyFlags [.z, .v, .n] c (bitEffect m c) :=
  (onlyFlags_setFlag (by decide) _ c).trans <| (onlyFlags_setFlag (by decide) _ _).trans
    (onlyFlags_setFlag (by decide) _ _)

/-! ## Increment and decrement -/

/-- The modification of INC and DEC, which leaves the register file (R209, R210). -/
def countByte (m : Mnem) (b : Byte) (c : Cpu) : Byte × Cpu := (if m = .inc then b + 1#8 else b - 1#8, c)

theorem exec_of_incDec {i : Instr} (h : i.mnem ∈ [.inc, .dec]) (s : State) :
    exec i s = modifying i (countByte i.mnem) Cpu.setZN s :=
  exec_of_mem (f := fun m i => modifying i (countByte m) Cpu.setZN) (by intro m hm; fin_cases hm <;> rfl) h s

/-- The byte INX, INY, DEX or DEY counts to (R211 to R214). -/
def countedByte (m : Mnem) (c : Cpu) : Byte :=
  if m = .inx then c.x + 1#8 else if m = .iny then c.y + 1#8 else if m = .dex then c.x - 1#8 else c.y - 1#8

/-- What a count does to the register file (R211 to R214). -/
def countEffect (m : Mnem) (c : Cpu) : Cpu :=
  let r := countedByte m c
  Cpu.setZN r { c with x := if m = .inx ∨ m = .dex then r else c.x, y := if m = .iny ∨ m = .dey then r else c.y }

theorem exec_of_count {i : Instr} (h : i.mnem ∈ [.inx, .iny, .dex, .dey]) (s : State) :
    exec i s = implied i (countEffect i.mnem) s :=
  exec_of_mem (f := fun m i => implied i (countEffect m)) (by intro m hm; fin_cases hm <;> rfl) h s

/-! ## The statements -/

/-- Settles O15: overflow by sign bits and by signed range, and subtraction as addition of the complement. -/
theorem adderIsArithmetic : Obligations.AdderIsArithmetic := by
  intro m c carry
  have hcarry : ((c.flag .c).toNat : Int) = carry := natCast_toNat _
  have hv : (c.addToA m).flag .v = adderOverflow c.a m (c.addToA m).a := flag_addToA m c .v
  have hdiff := adderSum_not c.a m (c.flag .c)
  rw [hcarry] at hdiff
  rw [hv, adderOverflow_eq_signs]
  refine ⟨rfl, ?_, ?_, ?_, ?_⟩
  · rw [decide_eq_decide, addToA_a, signs_iff_signed_overflow, hcarry]
  · rw [addToA_a, ← BitVec.ofInt_natCast, hdiff, ofInt_add_256]
  · have hc : (c.addToA (~~~m)).flag .c = decide (0xFF < adderSum c.a (~~~m) (c.flag .c)) := flag_addToA _ c .c
    rw [hc, decide_eq_decide]
    omega
  · rw [BitVec.zero_sub, BitVec.not_eq_neg_add]

/-- Settles O21: `addToARule` at the operand value, or its complement. -/
theorem addAndSubtract : Obligations.AddAndSubtract := by
  intro i s hr h v m sum r
  obtain ⟨t, hnext, hcpu, hdiag, hrest⟩ :=
    withOperand_spec (f := addEffect i.mnem) (d := s.cpu.addToA m) rfl rfl (mode_of_mem (by decide) h) hr
  obtain ⟨-, ha, hc, hv, hzn, honly, hx, hy, hsp, -, -⟩ := addToARule m s.cpu
  refine ⟨t, (exec_of_add h s).trans hnext, ?_⟩
  rw [hcpu]
  exact ⟨ha, hc, hv, hzn, honly, hx, hy, hsp, rfl, hdiag, hrest⟩

/-- Settles O22: A is written and SetZN follows. -/
theorem bitwiseLogic : Obligations.BitwiseLogic := by
  intro i s hr h v r
  obtain ⟨t, hnext, hcpu, hdiag, hrest⟩ :=
    withOperand_spec (f := logicEffect i.mnem) (d := s.cpu.loadA r) rfl rfl (mode_of_mem (by decide) h) hr
  refine ⟨t, (exec_of_logic h s).trans hnext, ?_⟩
  rw [hcpu]
  exact ⟨rfl, znOf_setZN r _, onlyFlags_setZN (by decide) (by decide) r { s.cpu with a := r }, rfl, rfl, rfl, rfl, hdiag,
    hrest⟩

/-- Settles O23: BIT writes its three flags, and P alone. -/
theorem bitTest : Obligations.BitTest := by
  intro i s hr h v
  obtain ⟨t, hnext, hcpu, hdiag, hrest⟩ :=
    withOperand_spec (f := bitEffect) (d := bitEffect v s.cpu) rfl rfl (mode_ne_none (by rw [h]; decide)) hr
  have hflag := flag_bitEffect v s.cpu
  refine ⟨t, (exec_of_bit h s).trans hnext, ?_⟩
  rw [hcpu]
  exact ⟨(hflag .z).trans (beq_eq_decide _ _), hflag .v, hflag .n, onlyFlags_bitEffect v s.cpu, rfl, hdiag, hrest⟩

/-- Settles O24: `compareRule` at the mnemonic's register. -/
theorem compares : Obligations.Compares := by
  intro i s hr h v reg
  obtain ⟨t, hnext, hcpu, hdiag, hrest⟩ :=
    withOperand_spec (f := compareEffect i.mnem) (d := s.cpu.compare reg v) rfl rfl (mode_of_mem (by decide) h) hr
  obtain ⟨hc, hzn, honly, hregs⟩ := compareRule reg v s.cpu
  refine ⟨t, (exec_of_compare h s).trans hnext, ?_⟩
  rw [hcpu]
  exact ⟨hc, hzn, honly, regs_setPc hregs _, hdiag, hrest⟩

/-- Settles O25: a read-modify-write instruction whose effect on the register file is SetZN. -/
theorem incrementMemory : Obligations.IncrementMemory := by
  intro i s hwf h hr hw ea r
  obtain ⟨t, hnext, hstored, hcpu, hdiag, hsession⟩ :=
    modifying_spec (f := countByte i.mnem) (r := r) rfl Cpu.setZN hwf (mode_of_mem (by decide) h) hr hw
  obtain ⟨hz, hn, honly, hregs⟩ := setZNRule r s.cpu
  refine ⟨t, (exec_of_incDec h s).trans hnext, hstored, ?_⟩
  rw [hcpu]
  exact ⟨⟨hz, hn⟩, honly, regs_setPc hregs _, hdiag, hsession⟩

/-- Settles O26: `countEffect` writes one register and ends in SetZN. -/
theorem incrementRegisters : Obligations.IncrementRegisters := by
  intro i s h r
  exact ⟨_, (exec_of_count h s).trans (implied_next i _ s), rfl, rfl, rfl, rfl, znOf_setZN r _,
    onlyFlags_setZN (by decide) (by decide) r { s.cpu with x := _, y := _ }, rfl, rfl,
    sameRest_of_bus rfl rfl rfl rfl⟩

end Sys2Proof.Machine
end

section
/-! Proofs for spec/43_shift_rotate.md: what a shift or rotate does to its byte and to the register file, by mnemonic;
`exec` as the accumulator or the memory shape that applies it; then the two statements. -/

namespace Sys2Proof.Machine

/-! ## The shift of a byte, by mnemonic -/

/-- The mnemonics of the four shifts and rotates. -/
def shiftMnems : List Mnem := [.asl, .lsr, .rol, .ror]

/-- The byte a shift or rotate makes of `b`; the carry in is C before the instruction (spec/40_execution.md R158). -/
def shiftedByte (m : Mnem) (b : Byte) (c : Cpu) : Byte :=
  if m = .asl then b <<< 1 else if m = .lsr then b >>> 1
  else if m = .rol then (b <<< 1) ||| carryByte (c.flag .c) else (b >>> 1) ||| (carryByte (c.flag .c) <<< 7)

/-- The bit a shift or rotate moves out of `b`, the C after the instruction (R158). -/
def bitShiftedOff (m : Mnem) (b : Byte) : Bool := if m = .asl ∨ m = .rol then b.getLsbD 7 else b.getLsbD 0

/-- The modification of ASL, LSR, ROL and ROR: the new byte, and C written (R250 to R253). -/
def shiftByte (m : Mnem) (b : Byte) (c : Cpu) : Byte × Cpu := (shiftedByte m b c, c.setFlag .c (bitShiftedOff m b))

theorem exec_of_shift {i : Instr} (h : i.mnem ∈ shiftMnems) (s : State) :
    exec i s = shifting i (shiftByte i.mnem) s :=
  exec_of_mem (f := fun m i => shifting i (shiftByte m)) (by intro m hm; fin_cases hm <;> rfl) h s

theorem shifting_of_acc {i : Instr} (h : i.operand = .acc) (f : Byte → Cpu → Byte × Cpu) (s : State) :
    shifting i f s = implied i (onAccumulator f) s := by
  unfold shifting
  rw [h]

/-- What a shift does to the register file: C is the bit shifted off, Z and N follow the result, and nothing but P is
written. -/
theorem setZN_setFlag_c_spec (r : Byte) (out : Bool) (c : Cpu) :
    ((c.setFlag .c out).setZN r).flag .c = out ∧ ZNOf r ((c.setFlag .c out).setZN r) ∧
      OnlyFlags [.c, .z, .n] c ((c.setFlag .c out).setZN r) ∧ { (c.setFlag .c out).setZN r with p := c.p } = c :=
  ⟨by simp, znOf_setZN r _,
    (onlyFlags_setFlag (by decide) out c).trans (onlyFlags_setZN (by decide) (by decide) r _), rfl⟩

/-- An accumulator form, whole: A takes the shifted byte, C the bit shifted off, and Z and N follow. -/
theorem exec_shift_acc {i : Instr} (h : i.mnem ∈ shiftMnems) (hacc : i.operand = .acc) (s : State) :
    ∃ t, exec i s = .next t ∧
      t.cpu = { (s.cpu.setFlag .c (bitShiftedOff i.mnem s.cpu.a)).loadA (shiftedByte i.mnem s.cpu.a s.cpu) with
        pc := nextPc i s.cpu } ∧
      t.diag = s.diag ∧ SameRest s t :=
  ⟨_, ((exec_of_shift h s).trans (shifting_of_acc hacc _ s)).trans (implied_next i _ s), rfl, rfl,
    sameRest_of_bus rfl rfl rfl rfl⟩

/-- The accumulator forms are the forms `acc` of the four mnemonics, and each is known by its mnemonic. -/
theorem mnem_of_accumulatorForm {i : Instr} (h : i ∈ [Instr.aslAcc, .lsrAcc, .rolAcc, .rorAcc]) :
    i.mnem ∈ shiftMnems ∧ i.operand = .acc ∧ (i = .aslAcc ↔ i.mnem = .asl) ∧ (i = .lsrAcc ↔ i.mnem = .lsr) ∧
      (i = .rolAcc ↔ i.mnem = .rol) := by
  fin_cases h <;> decide

/-! ## The statements -/

/-- Settles O27: `exec_shift_acc`, read flag by flag. -/
theorem shiftAccumulator : Obligations.ShiftAccumulator := by
  intro i s h
  obtain ⟨hm, hacc, hasl, hlsr, hrol⟩ := mnem_of_accumulatorForm h
  simp only [hasl, hlsr, hrol]
  obtain ⟨t, hnext, hcpu, hdiag, hrest⟩ := exec_shift_acc hm hacc s
  obtain ⟨hc, hzn, honly, -⟩ := setZN_setFlag_c_spec (shiftedByte i.mnem s.cpu.a s.cpu)
    (bitShiftedOff i.mnem s.cpu.a) { s.cpu with a := shiftedByte i.mnem s.cpu.a s.cpu }
  refine ⟨t, hnext, ?_⟩
  rw [hcpu]
  exact ⟨rfl, hc, hzn, honly, rfl, rfl, rfl, rfl, hdiag, hrest⟩

/-- Settles O28: a read-modify-write instruction whose modification writes C, with SetZN after it. -/
theorem shiftMemory : Obligations.ShiftMemory := by
  intro i s hwf h hacc hr hw ea b carry r
  obtain ⟨t, hnext, hstored, hcpu, hdiag, hsession⟩ :=
    modifying_spec (f := shiftByte i.mnem) (r := r) rfl Cpu.setZN hwf (mode_of_shift h hacc) hr hw
  obtain ⟨hc, hzn, honly, hregs⟩ := setZN_setFlag_c_spec r (bitShiftedOff i.mnem b) s.cpu
  refine ⟨t, ((exec_of_shift h s).trans (shifting_of_ne_acc hacc _ s)).trans hnext, hstored, ?_⟩
  rw [hcpu]
  exact ⟨hc, hzn, honly, regs_setPc hregs _, hdiag, hsession⟩

end Sys2Proof.Machine
end

section
/-! Proofs for spec/44_control.md: branches, jumps, subroutines, RTI and BRK. A branch is the model's one shape for its
flag and value; JMP and JSR are one shape too, Bus reads in order and then a target; the returns pop. Then the
statements. -/

namespace Sys2Proof.Machine

/-! ## Branches -/

/-- The flag each branch tests, and the value for which it is taken (spec/44_control.md R271 to R278). -/
def branchTests : List (Mnem × Flag × Bool) :=
  [(.bpl, .n, false), (.bmi, .n, true), (.bvc, .v, false), (.bvs, .v, true), (.bcc, .c, false), (.bcs, .c, true),
    (.bne, .z, false), (.beq, .z, true)]

theorem byMnem_of_branch : ∀ x ∈ branchTests, ∀ (i : Instr) (s : State),
    byMnem x.1 i s = branch i (fun c => c.flag x.2.1 == x.2.2) s := by
  intro x hx i s
  fin_cases hx <;>
    simp only [byMnem, opBpl, opBmi, opBvc, opBvs, opBcc, opBcs, opBne, opBeq, beq_false, beq_true]

theorem exec_of_branch {m : Mnem} {f : Flag} {want : Bool} {i : Instr} (h : (m, f, want) ∈ branchTests)
    (hm : i.mnem = m) (s : State) : exec i s = branch i (fun c => c.flag f == want) s := by
  rw [exec_byMnem, hm]
  exact byMnem_of_branch _ h i s

theorem eq_rel_of_form {o : Operand} (h : o.form = .rel) : o = .rel (branchOffset o) := by
  cases o
  case rel off => rfl
  all_goals cases h

/-- Every branch has an offset byte. -/
theorem operand_of_branch {m : Mnem} {f : Flag} {want : Bool} {i : Instr} (h : (m, f, want) ∈ branchTests)
    (hm : i.mnem = m) : i.operand = .rel (branchOffset i.operand) := by
  have key : (decide (i.operand.form = .rel) || decide (i.mnem ∉ branchTests.map Prod.fst)) = true := by
    cases i <;> rfl
  have hmem : i.mnem ∈ branchTests.map Prod.fst := hm ▸ List.mem_map_of_mem h
  exact eq_rel_of_form (by simpa [hmem] using key)

/-- The next instruction after a branch is two bytes from its opcode. -/
theorem nextPc_of_rel {i : Instr} {off : Byte} (h : i.operand = .rel off) (c : Cpu) : nextPc i c = c.pc + 1#16 := by
  have hlen : i.length = 2 := by rw [Instr.length, h]; rfl
  rw [nextPc, hlen]
  bv_omega

/-! ## Jumps -/

/-- The end of JMP and JSR: Bus reads in order, then PC is the target; `s0` is the state the instruction began in. -/
def jumping (i : Instr) (s0 : State) (l : List Word) (target : Word) (s : State) : Out :=
  finish i s0 ((hookReads l s).bind fun _ t => .ok .redirected (t.setPc target))

theorem jumping_ok {l : List Word} {s : State} (h : s.bus.readableAll l = true) (i : Instr) (s0 : State)
    (target : Word) : jumping i s0 l target s = .next ((s.logReads l).setPc target) := by
  rw [jumping, hookReads_ok h, bind_ok, finish_redirected]

/-- A jump enters Faulted at the first address it cannot read (spec/44_control.md R280, R281, decision D21). -/
theorem jumping_bad {l l' : List Word} {a : Word} {s : State} (hl : s.bus.readableAll l = true)
    (ha : s.bus.readable a = false) (i : Instr) (s0 : State) (target : Word) :
    jumping i s0 (l ++ a :: l') target s =
      .next ((s.logReads l).enterFaulted (.prgIndexOutOfRange a (prgIndex s.bus.cart a))
        (.opcodeAt s0.opcodeAddr)) := by
  rw [jumping, hookReads_bind_bad hl ha, finish_raise]

/-- A 16-bit read is its two reads in order, then the word by Peek (spec/20_memory.md R66). -/
theorem memRead16_eq_reads (a : Word) (s : State) :
    memRead16 a s = (hookReads [a, a + 1#16] s).bind fun _ t => .ok (s.bus.peek16 a) t := by
  cases h : s.bus.readable a <;> cases h' : s.bus.readable (a + 1#16) <;>
    simp [memRead16_eq, hookReads, memRead_eq, Bus.peek16, h, h']

theorem operandWord_eq_reads (w : Word) (s : State) :
    operandWord w s = (hookReads [s.cpu.pc, s.cpu.pc + 1#16] s).bind fun _ t => .ok w t := by
  rw [operandWord, memRead16_eq_reads, Res.bind_assoc]
  rfl

theorem exec_jmpAbs (w : Word) (s : State) :
    exec (.jmpAbs w) s = jumping (.jmpAbs w) s [s.cpu.pc, s.cpu.pc + 1#16] w s := by
  change opJmpAbs (.jmpAbs w) s = _
  rw [opJmpAbs, operandWord_eq_reads, Res.bind_assoc]
  rfl

theorem exec_jmpInd (w : Word) (s : State) :
    exec (.jmpInd w) s =
      jumping (.jmpInd w) s ([s.cpu.pc, s.cpu.pc + 1#16] ++ [w, indirectHighAddr w]) (s.bus.peekIndirect w) s := by
  change opJmpInd (.jmpInd w) s = _
  rw [opJmpInd, operandWord_eq_reads, Res.bind_assoc]
  simp only [bind_ok, hookReads_bind_memRead]
  rfl

/-! ## Subroutines -/

/-- Push16, whole: what every address reads as after it, where SP is, and that nothing else changed
(spec/40_execution.md R152, R154). -/
theorem push16_stored {s : State} (hw : s.bus.ram.wf 0x800 = true) (v : Word) :
    ∃ t, push16 v s = .ok () t ∧ t.cpu = { s.cpu with sp := s.cpu.sp - 2#8 } ∧ t.diag = s.diag ∧ SameSession s t ∧
      ∀ a, t.bus.peek a = if sameRamByte (stackAddr (s.cpu.sp - 1#8)) a then lowByte v
        else if sameRamByte (stackAddr s.cpu.sp) a then highByte v else s.bus.peek a := by
  refine ⟨_, push16_eq v s, by simp, by simp [writeEvents_stackAddr],
    (sameSession_wrote _ _ s).trans (sameSession_wrote _ _ (State.setSp _ _)), fun a => ?_⟩
  have hfirst := peek_wrote hw (stackAddr s.cpu.sp) a (highByte v)
  have hsecond := peek_wrote (s := (s.wrote (stackAddr s.cpu.sp) (highByte v)).setSp (s.cpu.sp - 1#8))
    (wrote_ram_wf hw _ _) (stackAddr (s.cpu.sp - 1#8)) a (lowByte v)
  rw [setSp_bus, hfirst] at hsecond
  exact hsecond

/-- JSR is its pushes, then a jump to the word its operand bytes hold (spec/44_control.md R282, decision D21). -/
theorem exec_jsr {s u : State} (addr : Word) (h : push16 (s.cpu.pc + 1#16) s = .ok () u) :
    exec (.jsr addr) s =
      jumping (.jsr addr) s [u.cpu.pc, u.cpu.pc + 1#16] (u.bus.peek16 u.cpu.pc) u := by
  change opJsr (.jsr addr) s = _
  rw [opJsr, h, bind_ok, memRead16_eq_reads, Res.bind_assoc]
  rfl

/-- A list of addresses that cannot all be read has a first one that cannot. -/
theorem exists_first_unreadable {b : Bus} {l : List Word} (h : b.readableAll l = false) :
    ∃ l₁ a l₂, l = l₁ ++ a :: l₂ ∧ b.readableAll l₁ = true ∧ b.readable a = false := by
  induction l with
  | nil => cases h
  | cons x l ih =>
    cases hx : b.readable x with
    | false => exact ⟨[], x, l, rfl, rfl, hx⟩
    | true =>
      obtain ⟨l₁, a, l₂, rfl, hl, ha⟩ := ih (by simpa [Bus.readableAll, hx] using h)
      exact ⟨x :: l₁, a, l₂, rfl, by simpa [Bus.readableAll, hx] using hl, ha⟩

/-- Which addresses can be read depends on the cartridge alone (spec/20_memory.md R65). -/
theorem readable_congr {b c : Bus} (h : c.cart = b.cart) : c.readable = b.readable := by
  funext a
  rw [Bus.readable, h, Bus.readable]

theorem readableAll_congr {b c : Bus} (h : c.cart = b.cart) : c.readableAll = b.readableAll := by
  funext l
  rw [Bus.readableAll, readable_congr h, Bus.readableAll]

/-! ## Returns -/

theorem exec_rts (s : State) :
    exec .rts s = .next ((s.setSp (s.cpu.sp + 2#8)).setPc
      (wordOf (s.bus.peek (stackAddr (s.cpu.sp + 2#8))) (s.bus.peek (stackAddr (s.cpu.sp + 1#8))) + 1#16)) := by
  change opRts .rts s = _
  rw [opRts, pop16_eq, bind_ok, finish_redirected]

/-- The registers after RTI (spec/44_control.md R285). -/
def rtiCpu (c : Cpu) (b : Bus) : Cpu :=
  { c with
    p := restoredStatus (b.peek (stackAddr (c.sp + 1#8)))
    sp := c.sp + 3#8
    pc := wordOf (b.peek (stackAddr (c.sp + 3#8))) (b.peek (stackAddr (c.sp + 2#8))) }

theorem exec_rti (s : State) : exec .rti s = .next (s.setCpu (rtiCpu s.cpu s.bus)) := by
  have htwo : s.cpu.sp + 1#8 + 1#8 = s.cpu.sp + 2#8 := BitVec.add_assoc _ _ _
  have hthree : s.cpu.sp + 1#8 + 2#8 = s.cpu.sp + 3#8 := BitVec.add_assoc _ _ _
  change opRti .rti s = _
  rw [opRti, pop_eq, bind_ok, pop16_eq, bind_ok, finish_redirected]
  simp only [mapCpu_cpu, mapCpu_bus, setSp_cpu, setSp_bus, htwo, hthree]
  rfl

/-! ## The statements -/

/-- Settles O30: the model's three lemmas on `branch`, at the flag and value of the mnemonic. -/
theorem branches : Obligations.Branches := by
  intro m f want i s h hm
  have hrel := operand_of_branch h hm
  rw [exec_of_branch h hm]
  refine ⟨fun hne => ?_, fun heq hread => ?_, fun heq hread => ?_⟩
  · exact ⟨_, branch_not_taken i _ s (beq_false_of_ne hne), rfl, rfl, sameRest_of_bus rfl rfl rfl rfl⟩
  · refine ⟨_, _, hrel, branch_taken i _ s (beq_iff_eq.2 heq) hread, ?_, ?_, sameRest_of_bus rfl rfl rfl rfl⟩
    · rw [nextPc_of_rel hrel]
      rfl
    · rw [logReads_singleton]
      rfl
  · exact ⟨_, branch_unreadable i _ s (beq_iff_eq.2 heq) hread, rfl, rfl, rfl, rfl, rfl⟩

/-- Settles O31: both are `jumping`, over the operand bytes and, for the indirect form, the pointer's two. -/
theorem jumps : Obligations.Jumps := by
  intro w s high operand
  refine ⟨fun h => ?_, fun h => ?_, fun i l l' a hi hl ha => ?_⟩
  · exact ⟨_, (exec_jmpAbs w s).trans (jumping_ok h _ s w), rfl, rfl, sameRest_of_bus rfl rfl rfl rfl⟩
  · exact ⟨_, (exec_jmpInd w s).trans (jumping_ok h _ s _), rfl, rfl, sameRest_of_bus rfl rfl rfl rfl⟩
  · obtain ⟨target, hexec⟩ : ∃ target, exec i s = jumping i s (l ++ a :: l') target s := by
      obtain ⟨rfl, hreads⟩ | ⟨rfl, hreads⟩ := hi
      · exact ⟨w, hreads ▸ exec_jmpAbs w s⟩
      · exact ⟨_, hreads ▸ exec_jmpInd w s⟩
    exact ⟨_, hexec.trans (jumping_bad hl ha i s target), rfl, rfl, rfl, rfl, rfl⟩

/-- Settles O32: the pushes by `push16_stored`, then a jump whose reads change only events. -/
theorem jumpToSubroutine : Obligations.JumpToSubroutine := by
  intro addr s hw high low
  obtain ⟨u, hpush, hcpu, hdiag, hsession, hpeek⟩ := push16_stored hw (s.cpu.pc + 1#16)
  have hexec := exec_jsr addr hpush
  have hpc : u.cpu.pc = s.cpu.pc := by rw [hcpu]
  obtain ⟨hcart, hrun, hpolicy, hhooks⟩ := hsession
  rw [hpc] at hexec
  cases hread : s.bus.readableAll [s.cpu.pc, s.cpu.pc + 1#16] with
  | true =>
    rw [jumping_ok (by rwa [readableAll_congr hcart])] at hexec
    refine ⟨_, hexec, hpeek, fun _ => ⟨?_, ?_, ⟨hcart, hrun, hpolicy, hhooks⟩, fun haddr hclear => ?_⟩, nofun⟩
    · rw [setPc_cpu, logReads_cpu, hcpu]
      rfl
    · rw [setPc_diag, logReads_diag, hdiag]
    · have hkept : ∀ a ∈ [s.cpu.pc, s.cpu.pc + 1#16], u.bus.peek a = s.bus.peek a := fun a ha => by
        obtain ⟨hlow, hhigh⟩ := hclear a ha
        exact (hpeek a).trans ((if_neg (Bool.eq_false_iff.1 hlow)).trans (if_neg (Bool.eq_false_iff.1 hhigh)))
      change u.bus.peek16 s.cpu.pc = addr
      rw [← haddr, Bus.peek16, Bus.peek16, hkept _ (by simp), hkept _ (by simp)]
  | false =>
    obtain ⟨l, a, l', hsplit, hl, ha⟩ := exists_first_unreadable hread
    rw [hsplit, jumping_bad (by rwa [readableAll_congr hcart]) (by rwa [readable_congr hcart]), hcart] at hexec
    exact ⟨_, hexec, hpeek, nofun, fun _ => ⟨a, by simp [hsplit], ha, rfl, hcart, hpolicy, hhooks⟩⟩

/-- Settles O33: one Pop16, and its word plus 1. -/
theorem returnFromSubroutine : Obligations.ReturnFromSubroutine := fun s =>
  ⟨_, exec_rts s, rfl, rfl, sameRest_of_bus rfl rfl rfl rfl⟩

/-- Settles O34: the restored status flag by flag, under `rtiCpu`. -/
theorem returnFromInterrupt : Obligations.ReturnFromInterrupt := fun s =>
  ⟨_, exec_rti s, flagOf_restoredStatus _, rfl, rfl, rfl, rfl, rfl, rfl, sameRest_of_bus rfl rfl rfl rfl⟩

/-- Settles O35: the byte 0x00 decodes to BRK, which changes the run state alone. -/
theorem breakHalts : Obligations.BreakHalts := by
  refine ⟨rfl, fun s => ⟨exec_brk s, fun hrun hnoop hread hzero => ?_⟩⟩
  rw [step_eq_stepWith_noop hnoop, stepWith_noop_of_readable (s := s.popHook) hrun hread, popHook_bus, popHook_cpu,
    hzero, decodeAt_zero, exec_brk, logReads_singleton]
  rfl

end Sys2Proof.Machine
end

section
/-! Proofs for spec/45_stack_flags_misc.md: the shapes that push and pull one byte, whole; the flag that each flag
instruction writes; a NOP as one of its two shapes; then the statements. That a pull undoes a push, and RTS a JSR, is
read off the statements on the single instructions. -/

namespace Sys2Proof.Machine

/-! ## Push and pull -/

/-- An instruction that pushes, whole (spec/40_execution.md R150, R154). -/
theorem pushing_spec {s : State} (hw : s.bus.ram.wf 0x800 = true) (i : Instr) (v : Cpu → Byte) :
    ∃ t, pushing i v s = .next t ∧ StoredAt (stackAddr s.cpu.sp) (v s.cpu) s t ∧
      t.cpu = { s.cpu with sp := s.cpu.sp - 1#8, pc := nextPc i s.cpu } ∧ t.diag = s.diag ∧ SameSession s t := by
  obtain ⟨u, hpush, hcpu, hdiag, hsession, hstored⟩ := push_spec hw (v s.cpu)
  have hpc : nextPc i u.cpu = nextPc i s.cpu := by rw [hcpu]; rfl
  refine ⟨u.setPc (nextPc i s.cpu), ?_, hstored, ?_, hdiag, hsession⟩
  · rw [pushing, hpush, bind_ok, finish_sequential, hpc]
  · rw [setPc_cpu, hcpu]

/-- An instruction that pulls, whole: `d` is its effect on the register file after SP moved (R151, R154). -/
theorem pulling_spec {i : Instr} {f : Byte → Cpu → Cpu} {s : State} {d : Cpu}
    (hf : f (s.bus.peek (stackAddr (s.cpu.sp + 1#8))) { s.cpu with sp := s.cpu.sp + 1#8 } = d)
    (hpc : d.pc = s.cpu.pc) :
    ∃ t, pulling i f s = .next t ∧ t.cpu = { d with pc := nextPc i s.cpu } ∧ t.diag = s.diag ∧ SameRest s t := by
  have hnext := pulling_next i f s
  rw [hf, nextPc_congr i hpc] at hnext
  refine ⟨_, hnext, ?_, rfl, sameRest_of_bus rfl rfl rfl rfl⟩
  rw [setPc_cpu, mapCpu_cpu, setSp_cpu, hf]

/-- After a push, the byte that a pull reads is the byte pushed. -/
theorem peek_of_pushed {s t : State} {v : Byte} (hstored : StoredAt (stackAddr s.cpu.sp) v s t)
    (hsp : t.cpu.sp = s.cpu.sp - 1#8) : t.bus.peek (stackAddr (t.cpu.sp + 1#8)) = v := by
  rw [hsp, BitVec.sub_add_cancel, hstored, sameRamByte_stackAddr, if_pos (decide_eq_true rfl)]

/-- The stack is in RAM, so what a stack byte reads as depends on the RAM alone (R154). -/
theorem peek_stackAddr_congr {b c : Bus} (h : c.ram = b.ram) (sp : Byte) :
    c.peek (stackAddr sp) = b.peek (stackAddr sp) := by
  simp only [Bus.peek, region_stackAddr, h]

/-- After Push16, the two stack bytes hold the word, the high one where SP was (R152). -/
theorem peek_of_pushed16 {b c : Bus} {sp : Byte} {w : Word}
    (h : ∀ a, c.peek a = if sameRamByte (stackAddr (sp - 1#8)) a then lowByte w
      else if sameRamByte (stackAddr sp) a then highByte w else b.peek a) :
    c.peek (stackAddr (sp - 1#8)) = lowByte w ∧ c.peek (stackAddr sp) = highByte w := by
  have hne : sp - 1#8 ≠ sp := by bv_omega
  refine ⟨?_, ?_⟩
  · rw [h, sameRamByte_stackAddr, if_pos (decide_eq_true rfl)]
  · rw [h, sameRamByte_stackAddr, if_neg (by simp [hne]), sameRamByte_stackAddr, if_pos (decide_eq_true rfl)]

/-- The next instruction after a JSR is three bytes from its opcode. -/
theorem nextPc_jsr (addr : Word) (c : Cpu) : nextPc (.jsr addr) c = c.pc + 1#16 + 1#16 := by
  have hlen : (Instr.jsr addr).length = 3 := rfl
  rw [nextPc, hlen]
  bv_omega

/-! ## Flag instructions -/

/-- The flag each flag instruction writes, and the value (spec/45_stack_flags_misc.md R310 to R316). -/
def flagWrites : List (Instr × Flag × Bool) :=
  [(.clc, .c, false), (.sec, .c, true), (.cli, .i, false), (.sei, .i, true), (.clv, .v, false), (.cld, .d, false),
    (.sed, .d, true)]

theorem exec_of_flagWrite {i : Instr} {f : Flag} {v : Bool} (h : (i, f, v) ∈ flagWrites) (s : State) :
    exec i s = implied i (Cpu.setFlag f v) s := by
  have key : ∀ x ∈ flagWrites, exec x.1 s = implied x.1 (Cpu.setFlag x.2.1 x.2.2) s := by
    intro x hx
    fin_cases hx <;> rfl
  exact key _ h

/-! ## No operation -/

theorem form_eq_imp_iff (o : Operand) : o.form = .imp ↔ o = .imp := by
  cases o
  case imp => exact ⟨fun _ => rfl, fun _ => rfl⟩
  all_goals exact ⟨nofun, nofun⟩

/-- A NOP does nothing, with its operand read where it has one (R320; spec/46_unofficial.md R343, R344). -/
theorem exec_of_nop {i : Instr} (h : i.mnem = .nop) (s : State) :
    exec i s = if i.operand = .imp then implied i (fun c => c) s else withOperand i (fun _ c => c) s := by
  rw [exec_byMnem, h]
  simp only [byMnem, form_eq_imp_iff, opNop, opNopRead]

/-! ## The statements on pushes and pulls -/

/-- Settles O36: one push, of A or of the status with B and U set. -/
theorem pushInstructions : Obligations.PushInstructions := by
  intro i s hw hi
  obtain rfl | rfl : i = .pha ∨ i = .php := by simpa using hi
  · obtain ⟨t, hnext, hstored, hrest⟩ := pushing_spec hw .pha (fun c => c.a)
    exact ⟨_, t, hnext, hstored, fun _ => rfl, nofun, hrest⟩
  · obtain ⟨t, hnext, hstored, hrest⟩ := pushing_spec hw .php (fun c => pushedStatus c.p)
    exact ⟨_, t, hnext, hstored, nofun, fun _ => flagOf_pushedStatus s.cpu.p, hrest⟩

/-- Settles O37: one pull, into A with SetZN, or into P as the restored status. -/
theorem pullInstructions : Obligations.PullInstructions := by
  intro s v
  refine ⟨?_, ?_⟩
  · obtain ⟨t, hnext, hcpu, hdiag, hrest⟩ := pulling_spec (i := .pla) (f := Cpu.loadA) (s := s) rfl rfl
    refine ⟨t, hnext, ?_⟩
    rw [hcpu]
    exact ⟨rfl, znOf_setZN v _, onlyFlags_setZN (by decide) (by decide) v { s.cpu with a := v }, rfl, rfl, rfl, rfl,
      hdiag, hrest⟩
  · obtain ⟨t, hnext, hcpu, hdiag, hrest⟩ :=
      pulling_spec (i := .plp) (f := fun b c => { c with p := restoredStatus b }) (s := s) rfl rfl
    refine ⟨t, hnext, ?_⟩
    rw [hcpu]
    exact ⟨flagOf_restoredStatus v, rfl, hdiag, hrest⟩

/-! ## A pull after a push, and RTS after JSR -/

theorem pla_undoes_pha {s t : State} (hw : s.bus.ram.wf 0x800 = true) (h : exec .pha s = .next t) :
    ∃ u, exec .pla t = .next u ∧ u.cpu.a = s.cpu.a ∧ u.cpu.sp = s.cpu.sp := by
  obtain ⟨v, t', hpush, hstored, hv, -, hcpu, -⟩ := pushInstructions .pha s hw (by decide)
  obtain rfl : t' = t := Host.Outcome.next.inj (hpush.symm.trans h)
  have hdown : t'.cpu.sp = s.cpu.sp - 1#8 := congrArg Cpu.sp hcpu
  obtain ⟨⟨u, hpull, ha, -, -, -, -, hup, -⟩, -⟩ := pullInstructions t'
  refine ⟨u, hpull, (ha.trans (peek_of_pushed hstored hdown)).trans (hv rfl), ?_⟩
  rw [hup, hdown, BitVec.sub_add_cancel]

theorem plp_undoes_php {s t : State} (hw : s.bus.ram.wf 0x800 = true) (h : exec .php s = .next t) :
    ∃ u, exec .plp t = .next u ∧ u.cpu.sp = s.cpu.sp ∧
      ∀ f, u.cpu.flag f = if f = .b then false else if f = .u then true else s.cpu.flag f := by
  obtain ⟨v, t', hpush, hstored, -, hv, hcpu, -⟩ := pushInstructions .php s hw (by decide)
  obtain rfl : t' = t := Host.Outcome.next.inj (hpush.symm.trans h)
  have hdown : t'.cpu.sp = s.cpu.sp - 1#8 := congrArg Cpu.sp hcpu
  obtain ⟨-, u, hpull, hflags, hregs, -⟩ := pullInstructions t'
  have hup : u.cpu.sp = t'.cpu.sp + 1#8 := congrArg Cpu.sp hregs
  have hpeek : t'.bus.peek (0x0100#16 + zext16 (t'.cpu.sp + 1#8)) = v := peek_of_pushed hstored hdown
  refine ⟨u, hpull, by rw [hup, hdown, BitVec.sub_add_cancel], fun f => ?_⟩
  rw [hflags, hpeek, hv rfl]
  cases f <;> rfl

/-- The word RTS pops is the address of the last byte of the JSR (spec/44_control.md R282 to R284). -/
theorem rts_undoes_jsr {s t u : State} (hw : s.bus.ram.wf 0x800 = true) (addr : Word) (h : exec (.jsr addr) s = .next t)
    (hlive : t.run.live = true) (hsp : u.cpu.sp = t.cpu.sp) (hram : u.bus.ram = t.bus.ram) :
    ∃ v, exec .rts u = .next v ∧ v.cpu.pc = nextPc (.jsr addr) s.cpu ∧ v.cpu.sp = s.cpu.sp := by
  obtain ⟨t', hjsr, hpeek, hok, hbad⟩ := jumpToSubroutine addr s hw
  obtain rfl : t' = t := Host.Outcome.next.inj (hjsr.symm.trans h)
  cases hread : s.bus.readableAll [s.cpu.pc, s.cpu.pc + 1#16] with
  | false =>
    obtain ⟨a, -, -, hfaulted, -⟩ := hbad hread
    rw [hfaulted] at hlive
    cases hlive
  | true =>
    obtain ⟨hcpu, -⟩ := hok hread
    have hdown : u.cpu.sp = s.cpu.sp - 2#8 := hsp.trans (congrArg Cpu.sp hcpu)
    obtain ⟨hlow, hhigh⟩ := peek_of_pushed16 hpeek
    obtain ⟨v, hrts, hvcpu, -⟩ := returnFromSubroutine u
    rw [hdown, sub_two_add_one, sub_two_add_two] at hvcpu
    have hup : v.cpu.sp = s.cpu.sp := by rw [hvcpu]
    have hpc : v.cpu.pc =
        wordOf (u.bus.peek (stackAddr s.cpu.sp)) (u.bus.peek (stackAddr (s.cpu.sp - 1#8))) + 1#16 :=
      congrArg Cpu.pc hvcpu
    rw [peek_stackAddr_congr hram, peek_stackAddr_congr hram, hlow, hhigh, wordOf_high_low] at hpc
    exact ⟨v, hrts, hpc.trans (nextPc_jsr addr s.cpu).symm, hup⟩

/-- Settles O38: one lemma for each pair; a JSR that keeps a live run state did not fault. -/
theorem pullUndoesPush : Obligations.PullUndoesPush := fun _ _ hw =>
  ⟨pla_undoes_pha hw, plp_undoes_php hw, fun addr _ h hlive hrun hsp hram =>
    rts_undoes_jsr hw addr h (hrun ▸ hlive) hsp hram⟩

/-! ## The statements on flags and NOP -/

/-- Settles O39: SetFlag writes its one flag, and P alone. -/
theorem flagInstructions : Obligations.FlagInstructions := by
  intro i f v s h
  refine ⟨_, (exec_of_flagWrite h s).trans (implied_next i _ s), ?_, onlyFlags_setFlag (by simp) v s.cpu, rfl, rfl,
    sameRest_of_bus rfl rfl rfl rfl⟩
  exact (flag_setFlag f f v s.cpu).trans (if_pos rfl)

/-- Settles O40: without an operand nothing happens, and with one its reads append their events. -/
theorem noOperations : Obligations.NoOperations := by
  intro i s h reads hr
  have hexec := exec_of_nop h s
  by_cases himp : i.operand = .imp
  · have hreads : reads = [] := if_pos himp
    rw [if_pos himp, implied_next] at hexec
    refine ⟨_, hexec, rfl, ?_, sameRest_of_bus rfl rfl rfl rfl⟩
    rw [hreads]
    exact (List.append_nil _).symm
  · have hreads : reads = operandReads i.operand s.cpu s.bus := if_neg himp
    have hmode := nop_mode h (mt (form_eq_imp_iff _).1 himp)
    rw [if_neg himp] at hexec
    rw [hreads] at hr ⊢
    rw [hexec]
    exact withOperand_spec rfl rfl hmode hr

end Sys2Proof.Machine
end

section
/-! Proofs for spec/46_unofficial.md: the combined read-modify-write instructions, the combined immediates, and the
unstable opcodes under the policy Implemented. First what each kind leaves in the register file, with the shape that
applies it; then the accesses that UNSTABLE_SEM may make; then the statements. -/

namespace Sys2Proof.Machine

/-! ## The status a combined instruction leaves -/

/-- How a combined instruction leaves the status: Z and N follow `res`, C and V are these, no other flag is written. -/
structure StatusFrom (c d : Cpu) (res : Byte) (carry overflow : Bool) : Prop where
  zn : ZNOf res d
  carry : d.flag .c = carry
  overflow : d.flag .v = overflow
  only : OnlyFlags [.c, .v, .z, .n] c d

/-- SetZN completes the status of a register file whose C and V are written. -/
theorem statusFrom_setZN {c d : Cpu} {carry overflow : Bool} (hc : d.flag .c = carry) (hv : d.flag .v = overflow)
    (h : OnlyFlags [.c, .v, .z, .n] c d) (res : Byte) : StatusFrom c (d.setZN res) res carry overflow :=
  ⟨znOf_setZN res d, (flag_setZN res d .c).trans hc, (flag_setZN res d .v).trans hv,
    h.trans (onlyFlags_setZN (by decide) (by decide) res d)⟩

/-- C written, then SetZN: V stays. -/
theorem statusFrom_setFlag_c (carry : Bool) (res : Byte) (c : Cpu) :
    StatusFrom c ((c.setFlag .c carry).setZN res) res carry (c.flag .v) :=
  statusFrom_setZN (flag_setFlag .c .c carry c) (flag_setFlag .c .v carry c) (onlyFlags_setFlag (by decide) carry c) res

/-- The status a register file began with is all that counts of it. -/
theorem StatusFrom.of_p {c c' d : Cpu} {res : Byte} {carry overflow : Bool} (h : StatusFrom c' d res carry overflow)
    (hp : c'.p = c.p) : StatusFrom c d res carry overflow :=
  ⟨h.zn, h.carry, h.overflow, fun f hf => (h.only f hf).trans (flag_eq_of_p hp f)⟩

/-- C written, then A and SetZN. -/
theorem statusFrom_loadA (carry : Bool) (res : Byte) (c : Cpu) :
    StatusFrom c ((c.setFlag .c carry).loadA res) res carry (c.flag .v) :=
  (statusFrom_setFlag_c carry res { c with a := res }).of_p rfl

/-- C and V written, then A and SetZN. -/
theorem statusFrom_loadA_setFlag_v (carry overflow : Bool) (res : Byte) (c : Cpu) :
    StatusFrom c (((c.setFlag .c carry).setFlag .v overflow).loadA res) res carry overflow := by
  let d := { c with a := res }
  have honly : OnlyFlags [.c, .v, .z, .n] d ((d.setFlag .c carry).setFlag .v overflow) :=
    (onlyFlags_setFlag (by decide) carry d).trans (onlyFlags_setFlag (by decide) overflow _)
  exact (statusFrom_setZN (by simp) (by simp) honly res).of_p rfl

/-- C written, then X and SetZN. -/
theorem statusFrom_loadX (carry : Bool) (res : Byte) (c : Cpu) :
    StatusFrom c ((c.setFlag .c carry).loadX res) res carry (c.flag .v) :=
  (statusFrom_setFlag_c carry res { c with x := res }).of_p rfl

/-- The adder, with the sum and the overflow in the words of `addToARule`. -/
theorem statusFrom_addToA (m : Byte) (c : Cpu) :
    let sum := c.a.toNat + m.toNat + (if c.flag .c then 1 else 0)
    let r := BitVec.ofNat 8 sum
    (c.addToA m).a = r ∧ StatusFrom c (c.addToA m) r (decide (0xFF < sum))
      (decide ((m ^^^ r) &&& (r ^^^ c.a) &&& 0x80#8 ≠ 0x00#8)) := by
  obtain ⟨-, ha, hc, hv, hzn, honly, -⟩ := addToARule m c
  exact ⟨ha, hzn, hc, hv, honly⟩

/-- The adder after C was written, as the rotate of RRA leaves it (R333). -/
theorem statusFrom_addToA_setFlag_c (carry : Bool) (m : Byte) (c : Cpu) :
    let sum := c.a.toNat + m.toNat + (if carry then 1 else 0)
    let r := BitVec.ofNat 8 sum
    ((c.setFlag .c carry).addToA m).a = r ∧ StatusFrom c ((c.setFlag .c carry).addToA m) r (decide (0xFF < sum))
      (decide ((m ^^^ r) &&& (r ^^^ c.a) &&& 0x80#8 ≠ 0x00#8)) := by
  have hcarry : (c.setFlag .c carry).flag .c = carry := flag_setFlag .c .c carry c
  obtain ⟨ha, hzn, hc, hv, honly⟩ := hcarry ▸ statusFrom_addToA m (c.setFlag .c carry)
  exact ⟨ha, hzn, hc, hv, (onlyFlags_setFlag (by decide) carry c).trans honly⟩

/-! ## The shapes, with the status a combined instruction leaves -/

/-- A read-modify-write instruction that writes A and P: `d` is the register file it ends in, but for PC. -/
theorem modifying_combined {i : Instr} {f : Byte → Cpu → Byte × Cpu} {after : Byte → Cpu → Cpu} {s : State}
    {r a res : Byte} {c d : Cpu} {carry overflow : Bool}
    (hf : f (s.bus.peek (peekEa i.operand s.cpu s.bus)) s.cpu = (r, c)) (hafter : after r c = d) (ha : d.a = a)
    (hregs : d.x = s.cpu.x ∧ d.y = s.cpu.y ∧ d.sp = s.cpu.sp ∧ d.pc = s.cpu.pc)
    (hstatus : StatusFrom s.cpu d res carry overflow)
    (hwf : s.bus.ram.wf 0x800 = true) (hm : i.operand.mode ≠ .noneAddressing)
    (hr : s.bus.readableAll (operandReads i.operand s.cpu s.bus) = true)
    (hw : writable (peekEa i.operand s.cpu s.bus) = true) :
    ∃ t, modifying i f after s = .next t ∧ StoredAt (peekEa i.operand s.cpu s.bus) r s t ∧ t.cpu.a = a ∧
      ZNOf res t.cpu ∧ t.cpu.flag .c = carry ∧ t.cpu.flag .v = overflow ∧ OnlyFlags [.c, .v, .z, .n] s.cpu t.cpu ∧
      t.cpu.x = s.cpu.x ∧ t.cpu.y = s.cpu.y ∧ t.cpu.sp = s.cpu.sp ∧ t.cpu.pc = nextPc i s.cpu ∧
      t.diag = s.diag ++ readEventsAll (operandReads i.operand s.cpu s.bus) ++
        writeEvents (peekEa i.operand s.cpu s.bus) r ∧
      SameSession s t := by
  obtain ⟨t, hnext, hstored, hcpu, hdiag, hsession⟩ := modifying_spec hf after hwf hm hr hw
  obtain ⟨hx, hy, hsp, hpc⟩ := hregs
  obtain ⟨hzn, hc, hv, honly⟩ := hstatus
  rw [hafter, nextPc_congr i hpc] at hcpu
  refine ⟨t, hnext, hstored, ?_⟩
  rw [hcpu]
  exact ⟨ha, hzn, hc, hv, honly, hx, hy, hsp, rfl, hdiag, hsession⟩

/-- An instruction on an immediate that writes A, X and P: `d` is the register file it ends in, but for PC. -/
theorem withOperand_combined {i : Instr} {f : Byte → Cpu → Cpu} {s : State} {v a x res : Byte} {d : Cpu}
    {carry overflow : Bool} (hf : f v s.cpu = d) (ha : d.a = a) (hx : d.x = x)
    (hregs : d.y = s.cpu.y ∧ d.sp = s.cpu.sp ∧ d.pc = s.cpu.pc)
    (hstatus : StatusFrom s.cpu d res carry overflow)
    (himm : i.operand = .imm v) (hr : s.bus.readable s.cpu.pc = true) :
    ∃ t, withOperand i f s = .next t ∧ t.cpu.a = a ∧ t.cpu.x = x ∧ ZNOf res t.cpu ∧ t.cpu.flag .c = carry ∧
      t.cpu.flag .v = overflow ∧ OnlyFlags [.c, .v, .z, .n] s.cpu t.cpu ∧ t.cpu.y = s.cpu.y ∧ t.cpu.sp = s.cpu.sp ∧
      t.cpu.pc = nextPc i s.cpu ∧ t.diag = s.diag ++ readEvents s.cpu.pc ∧ SameRest s t := by
  obtain ⟨hy, hsp, hpc⟩ := hregs
  obtain ⟨hzn, hc, hv, honly⟩ := hstatus
  have hreads : operandReads i.operand s.cpu s.bus = [s.cpu.pc] := by rw [himm]; rfl
  have hmode : i.operand.mode ≠ .noneAddressing := by rw [himm]; nofun
  have hvalue : f (operandValue i.operand s.cpu s.bus) s.cpu = d := by rw [himm]; exact hf
  obtain ⟨t, hnext, hcpu, hdiag, hrest⟩ :=
    withOperand_spec hvalue hpc hmode (by rw [hreads]; simp [Bus.readableAll, hr])
  refine ⟨t, hnext, ?_⟩
  rw [hcpu, hdiag, hreads]
  exact ⟨ha, hx, hzn, hc, hv, honly, hy, hsp, rfl, by simp [readEventsAll], hrest⟩

/-! ## The combined immediates -/

/-- The combined immediates have the immediate form alone. -/
theorem operand_of_combinedImmediate {i : Instr} (h : i.mnem ∈ [.anc, .alr, .arr, .axs]) :
    ∃ v, i.operand = .imm v := by
  have key : (decide (i.operand.form = .imm) || decide (i.mnem ∉ [Mnem.anc, .alr, .arr, .axs])) = true := by
    cases i <;> rfl
  have hform : i.operand.form = .imm := by simpa [h] using key
  cases ho : i.operand
  case imm v => exact ⟨v, rfl⟩
  all_goals rw [ho] at hform; cases hform

/-- ANC writes C after SetZN, which is the same as before it (R339). -/
theorem ancEffect_eq (v : Byte) (c : Cpu) :
    ancEffect v c = (c.setFlag .c ((c.a &&& v).getLsbD 7)).loadA (c.a &&& v) :=
  cpu_ext rfl rfl rfl rfl rfl fun f => by cases f <;> simp [ancEffect]

/-- ARR rotates the C before the instruction in at bit 7 (R341). -/
theorem rotR_fst (b : Byte) (c : Cpu) :
    (rotR b c).1 = (b >>> 1) ||| (if c.flag .c then 0x80#8 else 0x00#8) := by
  rw [rotR]
  cases c.flag .c <;> rfl

/-! ## The unstable opcodes -/

/-- How the accesses of UNSTABLE_SEM at `a` can end: only what reads as the RAM byte at `a` may have changed, and that
only under `stores`; or a store at an address in the PRG window raised, before any change but to the events. -/
def AccessesEnd (stores : Bool) (a : Word) (s : State) : Res Unit → Prop
  | .ok _ t => t.cpu = s.cpu ∧ SameSession s t ∧
      ∀ a', sameRamByte a a' = false ∨ stores = false → t.bus.peek a' = s.bus.peek a'
  | .raise f t => stores = true ∧ writable a = false ∧ (∃ v, f = .illegalWrite a v) ∧ t.bus = s.bus ∧
      t.policy = s.policy ∧ t.hooks = s.hooks

/-- A store before the other accesses. -/
theorem AccessesEnd.after_wrote {a : Word} {v : Byte} {s : State} {r : Res Unit} (hwf : s.bus.ram.wf 0x800 = true)
    (hw : writable a = true) (h : AccessesEnd true a (s.wrote a v) r) : AccessesEnd true a s r := by
  cases r with
  | ok x t =>
    obtain ⟨hcpu, ⟨hcart, hrun, hpolicy, hhooks⟩, hpeek⟩ := h
    obtain ⟨hcart', hrun', hpolicy', hhooks'⟩ := sameSession_wrote a v s
    refine ⟨hcpu.trans (wrote_cpu a v s), ⟨hcart.trans hcart', hrun.trans hrun', hpolicy.trans hpolicy',
      hhooks.trans hhooks'⟩, fun a' ha' => (hpeek a' ha').trans ?_⟩
    rw [peek_wrote hwf, if_neg (by simpa using ha')]
  | raise f t =>
    obtain ⟨-, hrom, -⟩ := h
    exact absurd hw (by simp [hrom])

/-- Everything the accesses of UNSTABLE_SEM can do, at an address that can be read. -/
theorem unstableAccesses_end (stores : Bool) {a : Word} {s : State} (hwf : s.bus.ram.wf 0x800 = true)
    (hr : s.bus.readable a = true) (l : List Config.UnstableAccess) :
    AccessesEnd stores a s (unstableAccesses stores a l s) := by
  induction l generalizing s with
  | nil => exact ⟨rfl, ⟨rfl, rfl, rfl, rfl⟩, fun _ _ => rfl⟩
  | cons x l ih =>
    cases x with
    | read =>
      rw [unstableAccesses, memRead_ok hr]
      exact ih (s := s.logReads [a]) hwf hr
    | write v =>
      cases stores with
      | false => exact ih hwf hr
      | true =>
        rw [unstableAccesses, if_pos rfl]
        cases hw : writable a with
        | true =>
          rw [memWrite_ok v s hw]
          exact (ih (wrote_ram_wf hwf a v) ((readable_wrote a a v s).trans hr)).after_wrote hwf hw
        | false =>
          rw [memWrite_bad v s hw]
          exact ⟨rfl, hw, ⟨v, rfl⟩, rfl, rfl, rfl⟩

/-- An unstable opcode under the policy Implemented, whole (R353): it completes, with `write` applied to the register
file, or a store in the PRG window ends it in Faulted. -/
theorem unstable_spec {i : Instr} {stores : Bool} {write : Config.UnstableEffect → Cpu → Cpu} {s : State}
    (hpc : ∀ e c, (write e c).pc = c.pc) (hpolicy : s.policy = .implemented) (hwf : s.bus.ram.wf 0x800 = true)
    (hm : i.operand.mode ≠ .noneAddressing)
    (hr : s.bus.readableAll (operandReads i.operand s.cpu s.bus) = true) :
    let ea := peekEa i.operand s.cpu s.bus
    ∃ t, unstable i stores write s = .next t ∧
      ((∃ e, t.cpu = { write e s.cpu with pc := nextPc i s.cpu } ∧
        (∀ a, sameRamByte ea a = false ∨ stores = false → t.bus.peek a = s.bus.peek a) ∧ SameSession s t) ∨
      (stores = true ∧ 0x8000 ≤ ea.toNat ∧
        ∃ v, FaultedFrom (.illegalWrite ea v) (.opcodeAt (s.cpu.pc - 1#16)) s t)) := by
  intro ea
  rw [operandReads, readableAll_append, Bool.and_eq_true] at hr
  obtain ⟨hreads, htarget⟩ := hr
  have htarget : s.bus.readable ea = true := by simpa [Bus.readableAll] using htarget
  let e := Config.unstableSem i.opcode s.cpu s.bus
  have hends := unstableAccesses_end stores (s := s.logReads (eaReads i.operand s.cpu)) hwf htarget e.accesses
  have hexec : unstable i stores write s = finish i s
      ((unstableAccesses stores ea e.accesses (s.logReads (eaReads i.operand s.cpu))).bind fun _ t =>
        .ok .sequential (t.mapCpu (write e))) := by
    rw [unstable, hpolicy]
    simp only [Machine.ea, resolve_ok _ _ s hm hreads, bind_ok]
    rfl
  generalize unstableAccesses stores ea e.accesses (s.logReads (eaReads i.operand s.cpu)) = r at hends hexec
  cases r with
  | ok x u =>
    obtain ⟨hcpu, hsession, hpeek⟩ := hends
    rw [bind_ok, finish_sequential] at hexec
    refine ⟨_, hexec, .inl ⟨e, ?_, hpeek, hsession⟩⟩
    rw [setPc_cpu, mapCpu_cpu, hcpu, logReads_cpu, nextPc_congr i (hpc e s.cpu)]
  | raise f u =>
    obtain ⟨hstores, hrom, ⟨v, hf⟩, hbus, hpol, hhooks⟩ := hends
    rw [bind_raise, finish_raise, hf] at hexec
    exact ⟨_, hexec, .inr ⟨hstores, (writable_eq_false _).1 hrom, v, rfl, hbus, hpol, hhooks⟩⟩

/-- What an unstable opcode writes of the register file, by its rule, from the values of UNSTABLE_SEM (R346 to R352). -/
def unstableWrite (m : Mnem) (e : Config.UnstableEffect) (c : Cpu) : Cpu :=
  { a := if m ∈ [.xaa, .lxa, .las] then e.a else c.a
    x := if m ∈ [.lxa, .las] then e.x else c.x
    y := c.y
    p := if m ∈ [.xaa, .lxa, .las] then (unstableZN e c).p else c.p
    sp := if m ∈ [.tas, .las] then e.sp else c.sp
    pc := c.pc }

theorem exec_eq_unstable {i : Instr} (h : i.mnem ∈ unstableMnems) (s : State) :
    exec i s = unstable i (decide (i.mnem ∉ [.xaa, .lxa, .las])) (unstableWrite i.mnem) s :=
  exec_of_mem (f := fun m i => unstable i (decide (m ∉ [.xaa, .lxa, .las])) (unstableWrite m))
    (by intro m hm; fin_cases hm <;> rfl) h s

/-- Of the flags, an unstable opcode writes Z and N at most. -/
theorem onlyFlags_unstableWrite (m : Mnem) (e : Config.UnstableEffect) (c : Cpu) :
    OnlyFlags [.z, .n] c (unstableWrite m e c) := by
  by_cases h : m ∈ [.xaa, .lxa, .las]
  · intro f hf
    have hp : (unstableWrite m e c).p = (unstableZN e c).p := if_pos h
    rw [flag_eq_of_p hp]
    exact ((onlyFlags_setFlag (by decide) e.z c).trans (onlyFlags_setFlag (by decide) e.n _)) f hf
  · exact fun f _ => flag_eq_of_p (if_neg h) f

/-! ## The statements -/

/-- Settles O41: six read-modify-write instructions, that end in SetZN, in Compare or in the adder. -/
theorem combinedModify : Obligations.CombinedModify := by
  intro i s hwf h hr hw
  have hmode := mode_of_mem (by decide) h
  rw [exec_byMnem]
  simp only [List.mem_cons, List.not_mem_nil, or_false] at h
  rcases h with h | h | h | h | h | h <;> simp only [h, byMnem, reduceCtorEq, reduceIte, or_true, or_false]
  · exact modifying_combined rfl rfl rfl ⟨rfl, rfl, rfl, rfl⟩ (statusFrom_loadA _ _ _) hwf hmode hr hw
  · exact modifying_combined rfl rfl rfl ⟨rfl, rfl, rfl, rfl⟩ (statusFrom_loadA _ _ _) hwf hmode hr hw
  · exact modifying_combined rfl rfl rfl ⟨rfl, rfl, rfl, rfl⟩ (statusFrom_loadA _ _ _) hwf hmode hr hw
  · obtain ⟨ha, hstatus⟩ := statusFrom_addToA_setFlag_c _ _ s.cpu
    exact modifying_combined rfl rfl ha ⟨rfl, rfl, rfl, rfl⟩ hstatus hwf hmode hr hw
  · exact modifying_combined rfl rfl rfl ⟨rfl, rfl, rfl, rfl⟩ (statusFrom_setFlag_c _ _ _) hwf hmode hr hw
  · obtain ⟨ha, hstatus⟩ := statusFrom_addToA _ s.cpu
    exact modifying_combined rfl rfl ha ⟨rfl, rfl, rfl, rfl⟩ hstatus hwf hmode hr hw

/-- Settles O42: each writes C, and ARR V too, and then A or X with SetZN. -/
theorem combinedImmediate : Obligations.CombinedImmediate := by
  intro i s hr h
  obtain ⟨v, himm⟩ := operand_of_combinedImmediate h
  refine ⟨v, ?_⟩
  simp only [himm, true_and]
  rw [exec_byMnem]
  simp only [List.mem_cons, List.not_mem_nil, or_false] at h
  rcases h with h | h | h | h <;> simp only [h, byMnem, reduceCtorEq, reduceIte]
  · exact withOperand_combined (ancEffect_eq v s.cpu) rfl rfl ⟨rfl, rfl, rfl⟩ (statusFrom_loadA _ _ _) himm hr
  · exact withOperand_combined rfl rfl rfl ⟨rfl, rfl, rfl⟩ (statusFrom_loadA _ _ _) himm hr
  · rw [← rotR_fst]
    exact withOperand_combined rfl rfl rfl ⟨rfl, rfl, rfl⟩ (statusFrom_loadA_setFlag_v _ _ _ _) himm hr
  · exact withOperand_combined rfl rfl rfl ⟨rfl, rfl, rfl⟩ (statusFrom_loadX _ _ _) himm hr

/-- Settles O44: `unstable_spec`, where `unstableWrite` keeps what the opcode's rule does not name. -/
theorem unstableOpcodesStayInBounds : Obligations.UnstableOpcodesStayInBounds := by
  intro i s hwf h hpolicy hr ea
  obtain ⟨t, hnext, hcase⟩ := unstable_spec (i := i) (stores := decide (i.mnem ∉ [.xaa, .lxa, .las]))
    (write := unstableWrite i.mnem) (fun _ _ => rfl) hpolicy hwf (mode_of_mem (by decide) h) hr
  refine ⟨t, (exec_eq_unstable h s).trans hnext, ?_⟩
  obtain ⟨e, hcpu, hpeek, hsession⟩ | ⟨hstores, hrom, hfault⟩ := hcase
  · left
    rw [hcpu]
    refine ⟨fun hm => ⟨if_neg hm, if_neg hm⟩, fun hm => if_neg hm, fun hm => if_neg hm, rfl,
      onlyFlags_unstableWrite i.mnem e s.cpu, rfl, fun a ha => hpeek a ?_, hsession⟩
    exact ha.imp_right fun hm => decide_eq_false (not_not.2 hm)
  · exact .inr ⟨of_decide_eq_true hstores, hrom, hfault⟩

end Sys2Proof.Machine
end

section
/-! Proofs for spec/60_exceptions.md: the faults an instruction can enter, and the length of a trace line. -/

namespace Sys2Proof.Machine

/-! ## Lengths of the parts of a trace line -/

@[simp] theorem length_hex2 (b : Byte) : (hex2 b).length = 2 := rfl

@[simp] theorem length_hex4 (w : Word) : (hex4 w).length = 4 := rfl

@[simp] theorem length_padRight (n : Nat) (l : List Char) : (padRight n l).length = max n l.length := by
  rw [padRight, List.length_append, List.length_replicate]
  omega

@[simp] theorem length_padLeft (n : Nat) (l : List Char) : (padLeft n l).length = max n l.length := by
  rw [padLeft, List.length_append, List.length_replicate]
  omega

theorem length_trimRight_le (l : List Char) : (trimRight l).length ≤ l.length := by
  rw [trimRight, List.length_reverse]
  exact (List.dropWhile_suffix _).length_le.trans_eq List.length_reverse

theorem length_mnemName (m : Mnem) : (mnemName m).length = 3 := by
  cases m <;> rfl

/-- A mnemonic fits its column of 4, the `*` of an unofficial one too (R441). -/
theorem length_traceMnem_le (r : Row) : (traceMnem r).length ≤ 4 := by
  unfold traceMnem
  split
  · rw [length_mnemName]; omega
  · rw [List.length_cons, length_mnemName]

/-- Three bytes in hex fit their column of 8 (R442). -/
theorem length_traceBytes_le (n : Nat) (c : Cpu) (b : Bus) : (traceBytes n c b).length ≤ 8 := by
  unfold traceBytes
  split <;> simp

/-- The bound is met by the operand of (zp),Y, the longest of R443. -/
theorem length_traceOperand_le (i : Instr) (c : Cpu) (b : Bus) : (traceOperand i c b).length ≤ 26 := by
  unfold traceOperand
  cases i.operand <;> simp

/-- The part before the registers fits the 47 columns it is padded to (R444). -/
theorem length_traceAsm_le (c : Cpu) (b : Bus) : (traceAsm c b).length ≤ 47 := by
  have hbytes := length_traceBytes_le (rowOf (b.peek c.pc)).length c b
  have hmnem := length_traceMnem_le (rowOf (b.peek c.pc))
  have hoperand := length_traceOperand_le (peekInstr c b) c b
  refine (length_trimRight_le _).trans ?_
  simp only [List.length_append, List.length_cons, List.length_nil, length_hex4, length_padRight, length_padLeft]
  omega

theorem length_traceRegs (c : Cpu) : (traceRegs c).length = 26 := rfl

/-! ## The statements -/

/-- Settles O46: by `exec_ends`, an instruction that ends in Faulted met a fault of the Bus or is Unimplemented; no
other end of a live session is Faulted. -/
theorem faultsAreThoseOfTheSpec : Obligations.FaultsAreThoseOfTheSpec := by
  intro i s t f site hlive hexec hfaulted
  obtain ⟨t', hnext, hends⟩ := exec_ends i s
  obtain rfl : t' = t := Host.Outcome.next.inj (hnext.symm.trans hexec)
  obtain ⟨-, ⟨hrun, -⟩ | ⟨g, hrun, hbus⟩⟩ | ⟨-, rfl⟩ | ⟨himpl, -, hrun⟩ := hends
  · rw [← hrun, hfaulted] at hlive
    cases hlive
  · cases hfaulted.symm.trans hrun
    obtain ⟨a, v, hf, ha⟩ | hprg := hbus
    · exact ⟨rfl, .inr (.inl ⟨a, v, hf, (writable_eq_false a).1 ha⟩)⟩
    · exact ⟨rfl, .inr (.inr hprg)⟩
  · cases hfaulted
  · cases hfaulted.symm.trans hrun
    exact ⟨rfl, .inl ⟨rfl, himpl⟩⟩

/-- Settles O60: the part before the registers is padded to exactly 47 columns, and the registers take 26. -/
theorem traceLineHas73Characters : Obligations.TraceLineHas73Characters := by
  intro c b
  rw [trace, String.length_ofList, traceChars, List.length_map, List.length_append, length_padRight,
    Nat.max_eq_left (length_traceAsm_le c b), length_traceRegs]

end Sys2Proof.Machine
end
